-- ==== Sys2Proof/Word.lean ====
section
/-! DEFINITION. The byte and the fixed-length byte sequence of the frame block (rules R12 and R13 of 00_scope.md). -/

namespace Sys2Proof

/-- A byte: an unsigned 8-bit value, bit 7 the most significant (rule R12). -/
abbrev Byte := BitVec 8

/-- A sequence of exactly `n` bytes, first byte at index 0 (rule R13): a list with the proof of its length, so
that an operand of another size cannot be written (rule R113, corner (c)). -/
abbrev Bytes (n : Nat) := { bs : List Byte // bs.length = n }

end Sys2Proof
end

