-- ==== Sys2Proof/Config.lean ====
section
/-! DEFINITION. The constants of rule R5 and the implementation parameters of rule R6 (00_scope.md). -/

namespace Sys2Proof

namespace Config

/-- `CRC_POLY`: exclusive-ored into the register when a 1 is shifted out (rules R5, R91). -/
abbrev crcPoly : Byte := 0x07

/-- `CRC_INIT`: the register value before the first byte (rules R5, R93). -/
abbrev crcInit : Byte := 0x00

/-- `FRAME_LEN`: the wire size of a frame in bytes (rules R5, R60). -/
abbrev frameLen : Nat := 18

/-- `PAYLOAD_LEN`: the size of the payload field in bytes (rules R5, R60). -/
abbrev payloadLen : Nat := 16

/-- `PAD`: the padding byte (rules R5, R62). -/
abbrev pad : Byte := 0xFF

/-- `CTRL_LEN`: the length-field value of a control frame (rules R5, R65). -/
abbrev ctrlLen : Byte := 0x01

/-- `OP_ACK`: the opcode the deframer drops (rule R5). -/
abbrev opAck : Byte := 0x15

/-- `OP_RETX`: the opcode that makes the deframer ask for a resend (rule R5). -/
abbrev opRetx : Byte := 0x19

/-- `OP_NACK`: the opcode that aborts (rule R5). -/
abbrev opNack : Byte := 0x59

end Config

/-- The one parameter of rule R6 that a rule of the block reads. `qdepth` is `QDEPTH`, the most frames the
application queue holds; `none` is the stated default, unbounded. The other parameters of rule R6
(`LINK_BIT_ORDER`, `BUS_BINDING`, `ENV_AUTO_SEND_CACHES`) are used by no rule of the block (notes/assumptions/25.md). -/
structure Config where
  qdepth : Option Nat
  deriving DecidableEq, Repr

/-- The default of rule R6: an unbounded queue. -/
def Config.unbounded : Config := ⟨none⟩

/-- "Any finite value >= 1 is admissible" (93_implementation_defined.md U5). -/
abbrev Config.Admissible (c : Config) : Prop := c.qdepth ≠ some 0

end Sys2Proof
end

