-- ==== Sys2Proof/Syntax.lean ====
section
/-! DEFINITION. Syntax: the `Frame` type, the instructions (one constructor per row of spec/opcode_table.json)
and the two forms in which the environment presents an instruction to the block. -/

namespace Sys2Proof

/-- A `Frame` (rule R110): any triple of a length byte, exactly 16 payload bytes and a crc byte. It need not
have a matching crc, a sensible length or padding. -/
structure Frame where
  length : Byte
  payload : Bytes 16
  crc : Byte
  deriving DecidableEq, Repr

/-- The instructions of the block: every row of spec/opcode_table.json. -/
inductive Instr where
  /-- `RESET` (rule R190). -/
  | reset
  /-- `CRC_CLR` (rule R94). -/
  | crcClr
  /-- `CRC_UPD b` (rule R95). -/
  | crcUpd (b : Byte)
  /-- `ENCODE lengthField, n, p[0..15]` (rules R71, R112): only the first `n` payload bytes are used. -/
  | encode (lengthField : Byte) (n : BitVec 5) (p : Bytes 16)
  /-- `DECODE w` (rule R113). -/
  | decode (w : Bytes 18)
  /-- `VERIFY F` (rule R114). -/
  | verify (f : Frame)
  /-- `RX_BYTE b` (rules R131, R132, R139). -/
  | rxByte (b : Byte)
  /-- `DEQ` (rule R142). -/
  | deq
  /-- Reserved select code 0x8 (rule R73). -/
  | reserved8
  /-- Reserved select code 0x9 (rule R73). -/
  | reserved9
  /-- Reserved select code 0xA (rule R73). -/
  | reservedA
  /-- Reserved select code 0xB (rule R73). -/
  | reservedB
  /-- Reserved select code 0xC (rule R73). -/
  | reservedC
  /-- Reserved select code 0xD (rule R73). -/
  | reservedD
  /-- Reserved select code 0xE (rule R73). -/
  | reservedE
  /-- Reserved select code 0xF (rule R73). -/
  | reservedF
  /-- Pseudo-operation `CTRL op` (rules R83, R119). -/
  | ctrl (opcode : Byte)
  /-- Pseudo-operation `CRC8 s` (rules R83, R97), a sequence of any length. -/
  | crc8 (bs : List Byte)
  /-- Pseudo-operation `RX_APPEND s` (rules R83, R140), a chunk of any length. -/
  | rxAppend (bs : List Byte)
  /-- The row FRAME: an 18-byte frame arriving from the link (rules R60, R67). -/
  | frame (w : Bytes 18)
  /-- The row ACK: that control frame arriving from the link (rules R66, R136). -/
  | ack
  /-- The row RETX: that control frame arriving from the link (rules R66, R135). -/
  | retx
  /-- The row SYNC_OBSERVED: that control frame arriving from the link (rules R66, R138). -/
  | syncObserved
  /-- The row FW_UPDATE_REQ: that control frame arriving from the link (rules R66, R138). -/
  | fwUpdateReq
  /-- The row FW_UPDATE_RES: that control frame arriving from the link (rules R66, R138). -/
  | fwUpdateRes
  /-- The row DEVICE_ID_REQ: that control frame arriving from the link (rules R66, R138). -/
  | deviceIdReq
  /-- The row DEVICE_ID_RES: that control frame arriving from the link (rules R66, R138). -/
  | deviceIdRes
  /-- The row FW_LENGTH_REQ: that control frame arriving from the link (rules R66, R138). -/
  | fwLengthReq
  /-- The row FW_LENGTH_RES: that control frame arriving from the link (rules R66, R138). -/
  | fwLengthRes
  /-- The row READY_FOR_DATA: that control frame arriving from the link (rules R66, R138). -/
  | readyForData
  /-- The row UPDATE_SUCCESSFUL: that control frame arriving from the link (rules R66, R138). -/
  | updateSuccessful
  /-- The row NACK: that control frame arriving from the link (rules R66, R137). -/
  | nack
  deriving DecidableEq, Repr

/-- What the environment presents to the block (DESIGN CHOICE, notes/assumptions/13.md). -/
inductive Input where
  /-- A packed operation word of rule R71, `width` bits whose value is `bits`: the select code in the most
  significant four bits, then the operands; a pseudo-operation is the words of its expansion joined (rule R83). -/
  | op (width bits : Nat)
  /-- A frame arriving from the link, as the 144-bit number of rule R60, byte 0 most significant. -/
  | link (w : BitVec 144)
  deriving DecidableEq, Repr

/-- Why an `Input` is no instruction. -/
inductive DecodeError where
  /-- The value has a bit at or above the stated width. -/
  | bitsBeyondWidth
  /-- The word is shorter than a select code (and is not the empty `RX_APPEND`). -/
  | noSelectCode
  /-- No form of the word's select code has this width. -/
  | wrongWidth
  /-- A word longer than one operation that is not the expansion of a pseudo-operation. -/
  | notAnExpansion
  deriving DecidableEq, Repr

end Sys2Proof
end

