-- ==== Sys2Proof/WellFormed.lean ====
section
/-! DEFINITION. Well-formedness of instructions: the operand ranges that the constructors' types do not already give. -/

namespace Sys2Proof

/-- An instruction whose operands are in the ranges the spec gives them. The only range a type does not already
enforce is `n` of `ENCODE`: "5 bits, 0 to 16" (rule R71); a larger one is refused (rules R73, R112). -/
def Instr.wellFormed : Instr → Bool
  | .reset => true
  | .crcClr => true
  | .crcUpd _ => true
  | .encode _ n _ => decide (n.toNat ≤ 16)
  | .decode _ => true
  | .verify _ => true
  | .rxByte _ => true
  | .deq => true
  | .reserved8 => true
  | .reserved9 => true
  | .reservedA => true
  | .reservedB => true
  | .reservedC => true
  | .reservedD => true
  | .reservedE => true
  | .reservedF => true
  | .ctrl _ => true
  | .crc8 _ => true
  | .rxAppend _ => true
  | .frame _ => true
  | .ack => true
  | .retx => true
  | .syncObserved => true
  | .fwUpdateReq => true
  | .fwUpdateRes => true
  | .deviceIdReq => true
  | .deviceIdRes => true
  | .fwLengthReq => true
  | .fwLengthRes => true
  | .readyForData => true
  | .updateSuccessful => true
  | .nack => true

end Sys2Proof
end

