-- ==== Sys2Proof/Decode.lean ====
section
/-! DEFINITION. Decoding and encoding: the packed operation words of rule R71, the expansions of rule R83 and the
144-bit frame of rule R60, with the encoder written from the same tables. -/

namespace Sys2Proof

/-- The `k` low bytes of a number, most significant first: byte 0 of a frame is `W[143:136]` (rules R13, R60). -/
def bytesOf : Nat → Nat → List Byte
  | 0, _ => []
  | k + 1, w => BitVec.ofNat 8 (w / 256 ^ k) :: bytesOf k w

/-- The number whose bytes, most significant first, are the given ones (rules R13, R60). -/
def numberOf : List Byte → Nat
  | [] => 0
  | b :: bs => b.toNat * 256 ^ bs.length + numberOf bs

/-- `bytesOf k` gives `k` bytes. -/
@[simp] theorem bytesOf_length (k w : Nat) : (bytesOf k w).length = k := by
  induction k with
  | zero => rfl
  | succ k ih => simp [bytesOf, ih]

/-- The `k` low bytes of a number as a sequence of that length. -/
def fixedBytes (k w : Nat) : Bytes k := ⟨bytesOf k w, bytesOf_length k w⟩

/-- `Ser(F) = [F.length] ++ F.payload ++ [F.crc]` (rule R110). -/
def ser (f : Frame) : Bytes 18 := ⟨f.length :: f.payload.1 ++ [f.crc], by simp [f.payload.2]⟩

/-- The inverse of `Ser`: length at offset 0, payload at offsets 1 to 16, crc at offset 17 (rules R41, R110, R113). -/
def splitBytes (w : Bytes 18) : Frame where
  length := w.1[0]'(by have := w.2; omega)
  payload := ⟨(w.1.drop 1).take 16, by simp [w.2]⟩
  crc := w.1[17]'(by have := w.2; omega)

/-- The 18 bytes of a single-byte control frame, its crc byte as the table of rule R66 lists it (rule R65). -/
def ctrlBytes (opcode crc : Byte) : Bytes 18 :=
  ⟨[0x01, opcode] ++ List.replicate 15 0xFF ++ [crc], by simp⟩

/-- The twelve control frames of rule R66, each with the instruction of its own row. -/
def controlRows : List (Bytes 18 × Instr) :=
  [ (ctrlBytes 0x15 0x27, .ack),          (ctrlBytes 0x19 0x3F, .retx),
    (ctrlBytes 0x20 0x4D, .syncObserved), (ctrlBytes 0x31 0x6F, .fwUpdateReq),
    (ctrlBytes 0x37 0x63, .fwUpdateRes),  (ctrlBytes 0x3C 0x75, .deviceIdReq),
    (ctrlBytes 0x3F 0x73, .deviceIdRes),  (ctrlBytes 0x42 0x89, .fwLengthReq),
    (ctrlBytes 0x45 0x87, .fwLengthRes),  (ctrlBytes 0x48 0x9D, .readyForData),
    (ctrlBytes 0x54 0xA5, .updateSuccessful), (ctrlBytes 0x59 0xBF, .nack) ]

/-- The instruction of an arriving frame: the row of rule R66 that lists it, else the generic row FRAME. -/
def frameInstr (w : Bytes 18) : Instr :=
  ((controlRows.find? fun r => r.1 == w).map Prod.snd).getD (.frame w)

/-- An `ENCODE` word, or `CTRL op` where the word is the more specific pattern `ENCODE 1, [op]` (rules R83, R119);
DESIGN CHOICE, notes/assumptions/12.md. -/
def encodeInstr (l : Byte) (n : BitVec 5) (p : Bytes 16) : Instr :=
  if l = 1 ∧ n = 1 then .ctrl (p.1[0]'(by have := p.2; omega)) else .encode l n p

/-- Reads `k` joined 12-bit words, all with the select code `code`, as their operand bytes (rule R83). -/
def unpackOps (code : Nat) : Nat → Nat → Option (List Byte)
  | 0, _ => some []
  | k + 1, w =>
    if w / 4096 ^ k % 4096 / 256 = code then
      (unpackOps code k w).map (BitVec.ofNat 8 (w / 4096 ^ k) :: ·)
    else none

/-- Joins 12-bit words `code, b`, one per byte, first byte most significant (rules R71, R83). -/
def packOps (code : Nat) : List Byte → Nat
  | [] => 0
  | b :: bs => (code * 256 + b.toNat) * 4096 ^ bs.length + packOps code bs

/-- An instruction whose word has exactly one width. -/
def ofWidth (want width : Nat) (i : Instr) : Except DecodeError Instr :=
  if width = want then .ok i else .error .wrongWidth

/-- A word with select code 0x1: `CRC_CLR`, or `CRC_CLR` joined with one or more `CRC_UPD` words, which is the
expansion of `CRC8` (rules R71, R83, R97). -/
def decodeCrcClr (width bits : Nat) : Except DecodeError Instr :=
  if width = 4 then .ok .crcClr
  else if width % 12 = 4 then
    match unpackOps 2 (width / 12) bits with
    | some bs => .ok (.crc8 bs)
    | none => .error .notAnExpansion
  else .error .wrongWidth

/-- A word with select code 0x6: one `RX_BYTE`, or two and more joined, which is the expansion of `RX_APPEND`
(rules R71, R83, R140). -/
def decodeRx (width bits : Nat) : Except DecodeError Instr :=
  if width = 12 then .ok (.rxByte (BitVec.ofNat 8 bits))
  else if width % 12 = 0 then
    match unpackOps 6 (width / 12) bits with
    | some bs => .ok (.rxAppend bs)
    | none => .error .notAnExpansion
  else .error .wrongWidth

/-- An operation word of `width` bits: the select code is its four most significant bits (rule R71). -/
def decodeOp (width bits : Nat) : Except DecodeError Instr :=
  if 2 ^ width ≤ bits then .error .bitsBeyondWidth
  else if width = 0 then .ok (.rxAppend [])
  else if width < 4 then .error .noSelectCode
  else
    match bits / 2 ^ (width - 4) with
    | 0x0 => ofWidth 4 width .reset
    | 0x1 => decodeCrcClr width bits
    | 0x2 => ofWidth 12 width (.crcUpd (BitVec.ofNat 8 bits))
    | 0x3 => ofWidth 145 width
        (encodeInstr (BitVec.ofNat 8 (bits / 2 ^ 133)) (BitVec.ofNat 5 (bits / 2 ^ 128)) (fixedBytes 16 bits))
    | 0x4 => ofWidth 148 width (.decode (fixedBytes 18 bits))
    | 0x5 => ofWidth 148 width (.verify (splitBytes (fixedBytes 18 bits)))
    | 0x6 => decodeRx width bits
    | 0x7 => ofWidth 4 width .deq
    | 0x8 => ofWidth 4 width .reserved8
    | 0x9 => ofWidth 4 width .reserved9
    | 0xA => ofWidth 4 width .reservedA
    | 0xB => ofWidth 4 width .reservedB
    | 0xC => ofWidth 4 width .reservedC
    | 0xD => ofWidth 4 width .reservedD
    | 0xE => ofWidth 4 width .reservedE
    | 0xF => ofWidth 4 width .reservedF
    | _ => .error .bitsBeyondWidth

/-- Decoding, total on every input; what is no instruction is rejected by name. -/
def decode : Input → Except DecodeError Instr
  | .op width bits => decodeOp width bits
  | .link w => .ok (frameInstr (fixedBytes 18 w.toNat))

/-- Encoding: the packed word of rule R71, the expansion of rule R83, or the 144-bit number of rules R60 and R66.
Ignored bits are written 0. -/
def encode : Instr → Input
  | .reset => .op 4 0x0
  | .crcClr => .op 4 0x1
  | .crcUpd b => .op 12 (0x200 + b.toNat)
  | .encode l n p => .op 145 (0x3 * 2 ^ 141 + l.toNat * 2 ^ 133 + n.toNat * 2 ^ 128 + numberOf p.1)
  | .decode w => .op 148 (0x4 * 2 ^ 144 + numberOf w.1)
  | .verify f => .op 148 (0x5 * 2 ^ 144 + numberOf (ser f).1)
  | .rxByte b => .op 12 (0x600 + b.toNat)
  | .deq => .op 4 0x7
  | .reserved8 => .op 4 0x8
  | .reserved9 => .op 4 0x9
  | .reservedA => .op 4 0xA
  | .reservedB => .op 4 0xB
  | .reservedC => .op 4 0xC
  | .reservedD => .op 4 0xD
  | .reservedE => .op 4 0xE
  | .reservedF => .op 4 0xF
  | .ctrl o => .op 145 (0x3 * 2 ^ 141 + 0x01 * 2 ^ 133 + 1 * 2 ^ 128 + o.toNat * 2 ^ 120)
  | .crc8 bs => .op (4 + 12 * bs.length) (0x1 * 4096 ^ bs.length + packOps 0x2 bs)
  | .rxAppend bs => .op (12 * bs.length) (packOps 0x6 bs)
  | .frame w => .link (BitVec.ofNat 144 (numberOf w.1))
  | .ack => .link 0x0115FFFFFFFFFFFFFFFFFFFFFFFFFFFFFF27#144
  | .retx => .link 0x0119FFFFFFFFFFFFFFFFFFFFFFFFFFFFFF3F#144
  | .syncObserved => .link 0x0120FFFFFFFFFFFFFFFFFFFFFFFFFFFFFF4D#144
  | .fwUpdateReq => .link 0x0131FFFFFFFFFFFFFFFFFFFFFFFFFFFFFF6F#144
  | .fwUpdateRes => .link 0x0137FFFFFFFFFFFFFFFFFFFFFFFFFFFFFF63#144
  | .deviceIdReq => .link 0x013CFFFFFFFFFFFFFFFFFFFFFFFFFFFFFF75#144
  | .deviceIdRes => .link 0x013FFFFFFFFFFFFFFFFFFFFFFFFFFFFFFF73#144
  | .fwLengthReq => .link 0x0142FFFFFFFFFFFFFFFFFFFFFFFFFFFFFF89#144
  | .fwLengthRes => .link 0x0145FFFFFFFFFFFFFFFFFFFFFFFFFFFFFF87#144
  | .readyForData => .link 0x0148FFFFFFFFFFFFFFFFFFFFFFFFFFFFFF9D#144
  | .updateSuccessful => .link 0x0154FFFFFFFFFFFFFFFFFFFFFFFFFFFFFFA5#144
  | .nack => .link 0x0159FFFFFFFFFFFFFFFFFFFFFFFFFFFFFFBF#144

/-- The spelling the decoder gives an instruction whose word belongs to several rows of the opcode table
(DESIGN CHOICE, notes/assumptions/12.md): `ENCODE 1, [op]` is `CTRL op`; `CRC8 []` has the word of `CRC_CLR`;
`RX_APPEND [b]` has the word of `RX_BYTE b`; a frame listed in rule R66 has the name it has there. -/
def Instr.canon : Instr → Instr
  | .encode l n p => encodeInstr l n p
  | .crc8 [] => .crcClr
  | .rxAppend [b] => .rxByte b
  | .frame w => frameInstr w
  | i => i

/-- The input whose bits are `w` as spec/opcode_table.json numbers them, given the row's size in whole bytes. The
table's widths 4, 12, 16, 145 and 148 are no whole bytes, so the width is told by the value (notes/assumptions/15.md). -/
def tableInput (nbits w : Nat) : Input :=
  if nbits = 144 then .link (BitVec.ofNat 144 w)
  else if nbits ≤ 8 then .op 4 w
  else if nbits ≤ 16 then (if w < 2 ^ 12 then .op 12 w else .op 16 w)
  else if w / 2 ^ 141 = 0x3 then .op 145 w
  else .op 148 w

/-- The instruction the decoder reads from a word of the opcode table. -/
def decodeTableWord (nbits w : Nat) : Option Instr :=
  match decode (tableInput nbits w) with
  | .ok i => some i
  | .error _ => none

end Sys2Proof
end

