-- ==== Sys2Proof/Machine/State.lean ====
section
/-! DEFINITION. The state of the block as plain data, the results, dispositions and requests it gives, the reasons it
stops, and the state after reset. -/

namespace Sys2Proof.Machine

/-- `Disp`: which of the five branches a candidate frame took (rule R133). -/
inductive Disp where
  | crcFail
  | retx
  | ack
  | nack
  | app
  deriving DecidableEq, Repr

/-- `Req`: an instruction from the deframer to Transport or the session (rule R167). -/
inductive Req where
  /-- To Transport: send the RETX control frame. -/
  | retxReq
  /-- To Transport: write its last-sent frame again. -/
  | resendReq
  /-- To Transport: send the ACK control frame. -/
  | ackReq
  /-- To the session: end with a PeerAbort error. -/
  | peerAbort
  /-- To the session: end with an error (finite `QDEPTH` only). -/
  | qovfFault
  deriving DecidableEq, Repr

/-- What an operation returns to its caller (rules R45, R71). -/
inductive Result where
  /-- Nothing; for `RX_BYTE`, the byte was stored (rule R131). -/
  | none
  /-- The 18 bytes of `ENCODE` (rule R112). -/
  | bytes (w : Bytes 18)
  /-- The frame of `DECODE` or of a successful `DEQ` (rules R113, R142). -/
  | frame (f : Frame)
  /-- The truth value of `VERIFY` (rule R114). -/
  | verdict (ok : Bool)
  /-- `RX_BYTE` completed a candidate (rule R132). -/
  | disp (d : Disp)
  /-- `RX_BYTE` found the deframer stopped (rule R139). -/
  | dropped
  /-- `DEQ` found the queue empty (rule R142). -/
  | empty
  /-- The read of `crc` that ends the pseudo-operation `CRC8` (rule R97). -/
  | crcValue (c : Byte)
  /-- The dispositions of a chunk, in order (rule R140). -/
  | disps (ds : List Disp)
  deriving DecidableEq, Repr

/-- The block's reasons to stop with a fault: there are none. Every exception of the spec ends in a next state, its
whole effect being given (rules R160 to R165, R173); notes/assumptions/24.md. -/
inductive Fault where
  deriving DecidableEq, Repr

/-- The reasons for which an instruction is not performed (rule R14, `refuse`). -/
inductive Refusal where
  /-- Raised by an arm of `exec` that has no meaning yet; safe. No arm raises it. -/
  | notModelled (mnemonic : String)
  /-- Raised by the eight reserved select codes, as rule R73 says; safe. -/
  | reservedSelect (code : BitVec 4)
  /-- Raised by `ENCODE` with more than 16 payload bytes, as rules R73 and R112 say; safe. -/
  | encodeTooLong (n : BitVec 5)
  /-- Raised by `step` on an input that is no instruction (notes/assumptions/14.md); safe. -/
  | undecodable (e : DecodeError)
  deriving DecidableEq, Repr

/-- The state. The first five fields are the architectural state of rule R20 (`rxcnt` is the length of `rxbuf`,
notes/assumptions/4.md); the others are the parameter of rule R6, the outputs, and what the environment invokes next. -/
structure State where
  /-- `crc`: the running CRC of unit U1 (rule R21). -/
  crc : Byte
  /-- `rxbuf[0..rxcnt-1]`: the bytes of the frame being collected, oldest first (rule R22). -/
  rxbuf : List Byte
  /-- `q`: accepted application frames, oldest first (rule R28). -/
  q : List Frame
  /-- `aborted` (rule R26). -/
  aborted : Bool
  /-- `qovf` (rule R27). -/
  qovf : Bool
  /-- The parameter `QDEPTH` (rule R6); no step changes it. -/
  cfg : Config
  /-- What the last operation returned (rules R20, R36). -/
  result : Result
  /-- Output history: the requests emitted since `RESET`, oldest first (rule R34). -/
  reqs : List Req
  /-- Output history: the dispositions returned since `RESET`, oldest first (rule R34). -/
  disps : List Disp
  /-- The stream position: the count of bytes given to `RX_BYTE` since `RESET` (rule R31 (b)). -/
  streamPos : Nat
  /-- The successful `DEQ` since `RESET` (rule R147). -/
  deqCount : Nat
  /-- What the environment invokes next, oldest first (rules R8, R25, R51). -/
  pending : List Input
  deriving DecidableEq, Repr

/-- `rxcnt`: how many bytes of the current frame have been collected (rule R23). -/
abbrev State.rxcnt (s : State) : Nat := s.rxbuf.length

/-- The block right after reset (rule R35), with the default parameter of rule R6 and nothing invoked yet. -/
def State.reset : State where
  crc := 0x00
  rxbuf := []
  q := []
  aborted := false
  qovf := false
  cfg := Config.unbounded
  result := .none
  reqs := []
  disps := []
  streamPos := 0
  deqCount := 0
  pending := []

end Sys2Proof.Machine
end

