-- ==== Sys2Proof/Machine/Operands.lean ====
section
/-! DEFINITION. Operand forms and the pure functions of the frame codec and the deframer (41_frame_codec.md,
42_deframer.md): `Pad`, `Encode`, `Decode`, `Verify`, `IsCtrl`, `Classify`. -/

namespace Sys2Proof.Machine

/-- The payload operand of `ENCODE`: the first `n` of the 16 bytes given (rule R71). -/
def payloadOperand (n : BitVec 5) (p : Bytes 16) : List Byte := p.1.take n.toNat

/-- The payload operand has at most 16 bytes. -/
theorem payloadOperand_length_le (n : BitVec 5) (p : Bytes 16) : (payloadOperand n p).length ≤ 16 := by
  simp only [payloadOperand, List.length_take, p.2]
  omega

/-- `Pad`: right-padded with 0xFF to 16 bytes (rules R62, R111); defined for at most 16 bytes. -/
def pad (p : List Byte) (h : p.length ≤ 16) : Bytes 16 :=
  ⟨p ++ List.replicate (16 - p.length) Config.pad, by simp; omega⟩

/-- The bytes the CRC covers: the length byte and the 16 payload bytes, in frame-offset order (rule R63). -/
def covered (length : Byte) (payload : Bytes 16) : List Byte := length :: payload.1

/-- `Encode`: length byte, padded payload, CRC8 over both (rule R112); defined for at most 16 payload bytes. -/
def encodeFrame (l : Byte) (p : List Byte) (h : p.length ≤ 16) : Bytes 18 :=
  let pp := pad p h
  ⟨l :: pp.1 ++ [crc8 (covered l pp)], by simp [pp.2]⟩

/-- `Decode`: splits 18 bytes into a frame, without validation (rule R113). -/
def decodeFrame (w : Bytes 18) : Frame := splitBytes w

/-- `Verify`: recomputes CRC8 over length and payload and compares it with the stored crc (rule R114). -/
def verifyFrame (f : Frame) : Bool := crc8 (covered f.length f.payload) == f.crc

/-- `IsCtrl`: length 1, the opcode, then fifteen 0xFF bytes; the crc is not looked at (rule R118). -/
def isCtrl (f : Frame) (op : Byte) : Bool :=
  f.length == Config.ctrlLen && f.payload.1 == op :: List.replicate 15 Config.pad

/-- `Classify`: the CRC first, then RETX, ACK, NACK, and application last (rule R133). -/
def classify (f : Frame) : Disp :=
  if !verifyFrame f then .crcFail
  else if isCtrl f Config.opRetx then .retx
  else if isCtrl f Config.opAck then .ack
  else if isCtrl f Config.opNack then .nack
  else .app

/-- The 3-bit code of a disposition (rule R133). -/
def Disp.code : Disp → BitVec 3
  | .crcFail => 0
  | .retx => 1
  | .ack => 2
  | .nack => 3
  | .app => 4

/-- The candidate frame: the 17 collected bytes and the incoming one, in stream order (rules R132, R143). More than
17 collected bytes occur in no run; the first 17 are then meant (notes/assumptions/5.md). -/
def candidate (buf : List Byte) (b : Byte) (h : ¬ buf.length < 17) : Bytes 18 :=
  ⟨buf.take 17 ++ [b], by simp; omega⟩

end Sys2Proof.Machine
end

