-- ==== Sys2Proof/Machine/Flags.lean ====
section
/-! DEFINITION. The flags `aborted` and `qovf`, the mode derived from them, and the read-only status view
(10_state.md). -/

namespace Sys2Proof.Machine

/-- The deframer's mode (rule R37). -/
inductive Mode where
  | run
  | aborted
  | fault
  deriving DecidableEq, Repr

/-- The mode the two flags select (rule R37). -/
def State.mode (s : State) : Mode :=
  if s.aborted then .aborted else if s.qovf then .fault else .run

/-- The deframer is stopped: mode `ABORTED` or `FAULT` (rules R37, R139). -/
def State.stopped (s : State) : Bool := s.aborted || s.qovf

/-- Sets the sticky flag `aborted` (rule R26). -/
def setAborted (s : State) : State := { s with aborted := true }

/-- Sets the sticky flag `qovf` (rule R27). -/
def setQovf (s : State) : State := { s with qovf := true }

/-- The fields of `STATUS` (rule R29); they have no fixed packing (notes/assumptions/25.md). -/
structure Status where
  rxcnt : BitVec 5
  aborted : Bool
  qovf : Bool
  qempty : Bool
  qcount : Nat
  crc : Byte
  deriving DecidableEq, Repr

/-- The read of `STATUS`; a function of the state, so it changes nothing (rules R29, R178). -/
def State.status (s : State) : Status where
  rxcnt := BitVec.ofNat 5 s.rxcnt
  aborted := s.aborted
  qovf := s.qovf
  qempty := s.q.isEmpty
  qcount := s.q.length
  crc := s.crc

end Sys2Proof.Machine
end

