-- ==== Sys2Proof/Machine/Ops.lean ====
section
/-! DEFINITION. The shared operations: results, requests, the queue, taking an exception, the disposals and the
byte-serial deframer (42_deframer.md, 60_exceptions.md). -/

namespace Sys2Proof.Machine

/-- `return v`: what the operation gives its caller (rules R14, R36). -/
def answer (r : Result) (s : State) : State := { s with result := r }

/-- `emit`: one request, appended to the output history (rules R14, R170). -/
def emit (r : Req) (s : State) : State := { s with reqs := s.reqs ++ [r] }

/-- `push(q, F)`: at the tail (rules R14, R28). -/
def push (f : Frame) (s : State) : State := { s with q := s.q ++ [f] }

/-- `crc <- c` (rule R21). -/
def setCrc (c : Byte) (s : State) : State := { s with crc := c }

/-- `len(q) < QDEPTH` (rule R138). -/
def hasRoom (s : State) : Bool :=
  match s.cfg.qdepth with
  | none => true
  | some d => decide (s.q.length < d)

/-- The exceptions that arise in the block (rule R160). -/
inductive Exc where
  | framingError
  | peerAbort
  | queueOverflow
  deriving DecidableEq, Repr

/-- `raise`: taking an exception, its whole effect on the state (rules R161, R162, R165, R173). Nothing is saved and
control goes nowhere; there is no return, and only `RESET` leaves a stopped mode (rule R174). -/
def raise : Exc → State → State
  | .framingError, s => emit .retxReq s
  | .peerAbort, s => emit .peerAbort (setAborted s)
  | .queueOverflow, s => emit .qovfFault (setQovf s)

/-- The disposal of a candidate frame (rules R134 to R138, R165). -/
def dispose : Disp → Frame → State → State
  | .crcFail, _, s => raise .framingError s
  | .retx, _, s => emit .resendReq s
  | .ack, _, s => s
  | .nack, _, s => raise .peerAbort s
  | .app, f, s => if hasRoom s then emit .ackReq (push f s) else raise .queueOverflow s

/-- The collecting case: the byte is stored at `rxbuf[rxcnt]` (rule R131). -/
def store (b : Byte) (s : State) : State :=
  { s with rxbuf := s.rxbuf ++ [b], streamPos := s.streamPos + 1 }

/-- The 18 bytes of a completed candidate leave the buffer and its disposition is returned, whatever happens next
(rules R34, R132). -/
def consume (d : Disp) (s : State) : State :=
  { s with rxbuf := [], streamPos := s.streamPos + 1, disps := s.disps ++ [d] }

/-- The stopped case: the byte is dropped and only its stream position passes (rules R31 (b), R139). -/
def dropByte (s : State) : State := { s with streamPos := s.streamPos + 1 }

/-- `RX_BYTE`: stopped, collecting or completing (rules R131, R132, R139), with what it returns. -/
def rxStep (b : Byte) (s : State) : State × Result :=
  if s.stopped then (dropByte s, .dropped)
  else if h : s.rxbuf.length < 17 then (store b s, .none)
  else
    let f := decodeFrame (candidate s.rxbuf b h)
    (dispose (classify f) f (consume (classify f) s), .disp (classify f))

/-- The disposition in a result of `RX_BYTE`, if there is one. -/
def Result.dispositions : Result → List Disp
  | .disp d => [d]
  | _ => []

/-- `RX_APPEND`: `RX_BYTE` on each byte in order, with the dispositions returned, in order (rule R140). -/
def receive : List Byte → State → State × List Disp
  | [], s => (s, [])
  | b :: bs, s =>
    match rxStep b s with
    | (s₁, r) =>
      match receive bs s₁ with
      | (s₂, ds) => (s₂, r.dispositions ++ ds)

/-- A chunk of bytes given to the deframer, answered by the dispositions of its candidates (rule R140). -/
def deliver (bs : List Byte) (s : State) : State :=
  answer (.disps (receive bs s).2) (receive bs s).1

end Sys2Proof.Machine
end

