-- ==== Sys2Proof/Machine/Codec.lean ====
section
/-! DEFINITION. The operations of the frame codec (41_frame_codec.md). -/

namespace Sys2Proof.Machine

/-- `ENCODE lengthField, p`: 18 bytes, or refused when `n` is over 16 (rules R73, R112). -/
def execEncode (l : Byte) (n : BitVec 5) (p : Bytes 16) (s : State) : Host.Outcome State Fault Refusal :=
  if n.toNat ≤ 16 then
    .next (answer (.bytes (encodeFrame l (payloadOperand n p) (payloadOperand_length_le n p))) s)
  else .refused (.encodeTooLong n)

/-- `DECODE w`: a frame, without validation (rule R113). -/
def execDecode (w : Bytes 18) (s : State) : Host.Outcome State Fault Refusal :=
  .next (answer (.frame (decodeFrame w)) s)

/-- `VERIFY F`: a truth value (rule R114). -/
def execVerify (f : Frame) (s : State) : Host.Outcome State Fault Refusal :=
  .next (answer (.verdict (verifyFrame f)) s)

/-- `CTRL op`: `ENCODE 1, [op]` (rules R83, R119). -/
def execCtrl (opcode : Byte) (s : State) : Host.Outcome State Fault Refusal :=
  .next (answer (.bytes (encodeFrame Config.ctrlLen [opcode] (by simp))) s)

end Sys2Proof.Machine
end

