-- ==== Sys2Proof/Machine/Deframer.lean ====
section
/-! DEFINITION. The operations of the deframer (42_deframer.md). -/

namespace Sys2Proof.Machine

/-- `RX_BYTE b` (rules R131, R132, R139). -/
def execRxByte (b : Byte) (s : State) : Host.Outcome State Fault Refusal :=
  .next (answer (rxStep b s).2 (rxStep b s).1)

/-- `RX_APPEND s` (rule R140). -/
def execRxAppend (bs : List Byte) (s : State) : Host.Outcome State Fault Refusal :=
  .next (deliver bs s)

/-- `DEQ`: removes and returns the oldest frame, or returns `empty` at once (rule R142). -/
def execDeq (s : State) : Host.Outcome State Fault Refusal :=
  match s.q with
  | [] => .next (answer .empty s)
  | f :: fs => .next (answer (.frame f) { s with q := fs, deqCount := s.deqCount + 1 })

end Sys2Proof.Machine
end

