-- ==== Sys2Proof/Machine/Frames.lean ====
section
/-! DEFINITION. The arrival of a frame from the link: the generic frame of rule R60 and the twelve control frames of
rule R66. The producer gives the deframer the frame's 18 bytes as one chunk (DESIGN CHOICE, notes/assumptions/10.md);
at a frame boundary they are one candidate, elsewhere they straddle two (rules R46, R47). -/

namespace Sys2Proof.Machine

/-- The row FRAME: any 18 bytes (rules R60, R67, R68). -/
def execFrame (w : Bytes 18) (s : State) : Host.Outcome State Fault Refusal := .next (deliver w.1 s)

/-- ACK, opcode 0x15 (rule R66): at a frame boundary, dropped silently (rule R136). -/
def execAck (s : State) : Host.Outcome State Fault Refusal := .next (deliver (ctrlBytes 0x15 0x27).1 s)

/-- RETX, opcode 0x19 (rule R66): at a frame boundary, `RESEND_REQ` (rule R135). -/
def execRetx (s : State) : Host.Outcome State Fault Refusal := .next (deliver (ctrlBytes 0x19 0x3F).1 s)

/-- SYNC_OBSERVED, opcode 0x20 (rule R66): at a frame boundary, an application frame (rule R138). -/
def execSyncObserved (s : State) : Host.Outcome State Fault Refusal := .next (deliver (ctrlBytes 0x20 0x4D).1 s)

/-- FW_UPDATE_REQ, opcode 0x31 (rule R66): at a frame boundary, an application frame (rule R138). -/
def execFwUpdateReq (s : State) : Host.Outcome State Fault Refusal := .next (deliver (ctrlBytes 0x31 0x6F).1 s)

/-- FW_UPDATE_RES, opcode 0x37 (rule R66): at a frame boundary, an application frame (rule R138). -/
def execFwUpdateRes (s : State) : Host.Outcome State Fault Refusal := .next (deliver (ctrlBytes 0x37 0x63).1 s)

/-- DEVICE_ID_REQ, opcode 0x3C (rule R66): at a frame boundary, an application frame (rule R138). -/
def execDeviceIdReq (s : State) : Host.Outcome State Fault Refusal := .next (deliver (ctrlBytes 0x3C 0x75).1 s)

/-- DEVICE_ID_RES, opcode 0x3F (rule R66): at a frame boundary, an application frame (rule R138). -/
def execDeviceIdRes (s : State) : Host.Outcome State Fault Refusal := .next (deliver (ctrlBytes 0x3F 0x73).1 s)

/-- FW_LENGTH_REQ, opcode 0x42 (rule R66): at a frame boundary, an application frame (rule R138). -/
def execFwLengthReq (s : State) : Host.Outcome State Fault Refusal := .next (deliver (ctrlBytes 0x42 0x89).1 s)

/-- FW_LENGTH_RES, opcode 0x45 (rule R66): at a frame boundary, an application frame (rule R138). -/
def execFwLengthRes (s : State) : Host.Outcome State Fault Refusal := .next (deliver (ctrlBytes 0x45 0x87).1 s)

/-- READY_FOR_DATA, opcode 0x48 (rule R66): at a frame boundary, an application frame (rule R138). -/
def execReadyForData (s : State) : Host.Outcome State Fault Refusal := .next (deliver (ctrlBytes 0x48 0x9D).1 s)

/-- UPDATE_SUCCESSFUL, opcode 0x54 (rule R66): at a frame boundary, an application frame (rule R138). -/
def execUpdateSuccessful (s : State) : Host.Outcome State Fault Refusal := .next (deliver (ctrlBytes 0x54 0xA5).1 s)

/-- NACK, opcode 0x59 (rule R66): at a frame boundary, `PeerAbort` (rule R137). -/
def execNack (s : State) : Host.Outcome State Fault Refusal := .next (deliver (ctrlBytes 0x59 0xBF).1 s)

end Sys2Proof.Machine
end

