-- ==== Sys2Proof/Machine/Generator.lean ====
section
/-! DEFINITION. The operations of the CRC8 generator (40_crc8.md). -/

namespace Sys2Proof.Machine

/-- `CRC_CLR`: `crc <- 0x00` (rule R94). -/
def execCrcClr (s : State) : Host.Outcome State Fault Refusal :=
  .next (answer .none (setCrc Config.crcInit s))

/-- `CRC_UPD b`: `crc <- CrcByte(crc, b)` (rule R95). -/
def execCrcUpd (b : Byte) (s : State) : Host.Outcome State Fault Refusal :=
  .next (answer .none (setCrc (crcByte s.crc b) s))

/-- `CRC8 s`: `CRC_CLR`, then `CRC_UPD` for each byte in order, then a read of `crc` (rules R83, R97). -/
def execCrc8 (bs : List Byte) (s : State) : Host.Outcome State Fault Refusal :=
  let c := bs.foldl crcByte Config.crcInit
  .next (answer (.crcValue c) (setCrc c s))

end Sys2Proof.Machine
end

