-- ==== Sys2Proof/Machine/System.lean ====
section
/-! DEFINITION. `RESET` and the reserved select codes (70_reset_and_hazards.md, 30_encoding.md). -/

namespace Sys2Proof.Machine

/-- `RESET` (rules R190, R35): the block's state and the output history start again; the parameter and what the
environment invokes next are not the block's. -/
def execReset (s : State) : Host.Outcome State Fault Refusal :=
  .next { s with
    crc := Config.crcInit, rxbuf := [], q := [], aborted := false, qovf := false, result := .none
    reqs := [], disps := [], streamPos := 0, deqCount := 0 }

/-- A reserved select code: "refused: the block performs nothing" (rule R73). -/
def refuseSelect (code : BitVec 4) (_ : State) : Host.Outcome State Fault Refusal :=
  .refused (.reservedSelect code)

/-- Select code 0x8 (rule R73). -/
def execReserved8 (s : State) : Host.Outcome State Fault Refusal := refuseSelect 0x8 s

/-- Select code 0x9 (rule R73). -/
def execReserved9 (s : State) : Host.Outcome State Fault Refusal := refuseSelect 0x9 s

/-- Select code 0xA (rule R73). -/
def execReservedA (s : State) : Host.Outcome State Fault Refusal := refuseSelect 0xA s

/-- Select code 0xB (rule R73). -/
def execReservedB (s : State) : Host.Outcome State Fault Refusal := refuseSelect 0xB s

/-- Select code 0xC (rule R73). -/
def execReservedC (s : State) : Host.Outcome State Fault Refusal := refuseSelect 0xC s

/-- Select code 0xD (rule R73). -/
def execReservedD (s : State) : Host.Outcome State Fault Refusal := refuseSelect 0xD s

/-- Select code 0xE (rule R73). -/
def execReservedE (s : State) : Host.Outcome State Fault Refusal := refuseSelect 0xE s

/-- Select code 0xF (rule R73). -/
def execReservedF (s : State) : Host.Outcome State Fault Refusal := refuseSelect 0xF s

end Sys2Proof.Machine
end

