-- ==== Sys2Proof/Machine/Dispatch.lean ====
section
/-! DEFINITION. The dispatch from an instruction to its meaning: one arm per row of spec/opcode_table.json. -/

namespace Sys2Proof.Machine

def exec (i : Instr) (s : State) : Host.Outcome State Fault Refusal :=
  match i with
  | .reset => Sys2Proof.Machine.execReset s
  | .crcClr => Sys2Proof.Machine.execCrcClr s
  | .crcUpd b => Sys2Proof.Machine.execCrcUpd b s
  | .encode l n p => Sys2Proof.Machine.execEncode l n p s
  | .decode w => Sys2Proof.Machine.execDecode w s
  | .verify f => Sys2Proof.Machine.execVerify f s
  | .rxByte b => Sys2Proof.Machine.execRxByte b s
  | .deq => Sys2Proof.Machine.execDeq s
  | .reserved8 => Sys2Proof.Machine.execReserved8 s
  | .reserved9 => Sys2Proof.Machine.execReserved9 s
  | .reservedA => Sys2Proof.Machine.execReservedA s
  | .reservedB => Sys2Proof.Machine.execReservedB s
  | .reservedC => Sys2Proof.Machine.execReservedC s
  | .reservedD => Sys2Proof.Machine.execReservedD s
  | .reservedE => Sys2Proof.Machine.execReservedE s
  | .reservedF => Sys2Proof.Machine.execReservedF s
  | .ctrl o => Sys2Proof.Machine.execCtrl o s
  | .crc8 bs => Sys2Proof.Machine.execCrc8 bs s
  | .rxAppend bs => Sys2Proof.Machine.execRxAppend bs s
  | .frame w => Sys2Proof.Machine.execFrame w s
  | .ack => Sys2Proof.Machine.execAck s
  | .retx => Sys2Proof.Machine.execRetx s
  | .syncObserved => Sys2Proof.Machine.execSyncObserved s
  | .fwUpdateReq => Sys2Proof.Machine.execFwUpdateReq s
  | .fwUpdateRes => Sys2Proof.Machine.execFwUpdateRes s
  | .deviceIdReq => Sys2Proof.Machine.execDeviceIdReq s
  | .deviceIdRes => Sys2Proof.Machine.execDeviceIdRes s
  | .fwLengthReq => Sys2Proof.Machine.execFwLengthReq s
  | .fwLengthRes => Sys2Proof.Machine.execFwLengthRes s
  | .readyForData => Sys2Proof.Machine.execReadyForData s
  | .updateSuccessful => Sys2Proof.Machine.execUpdateSuccessful s
  | .nack => Sys2Proof.Machine.execNack s

end Sys2Proof.Machine
end

