-- ==== Sys2Proof/Machine/Step.lean ====
section
/-! DEFINITION. One step: the next operation the environment invokes, decoded and executed. -/

namespace Sys2Proof.Machine

/-- One step. The environment's next invocation is taken, decoded and executed as one atomic step (rules R25, R48,
R51); while it invokes nothing the block "does nothing between operations" (rule R8; notes/assumptions/2.md). -/
def step (s : State) : Host.Outcome State Fault Refusal :=
  match s.pending with
  | [] => .next s
  | x :: rest =>
    match decode x with
    | .ok i => exec i { s with pending := rest }
    | .error e => .refused (.undecodable e)

/-- The state in which the environment invokes next the instruction whose opcode-table word is `w`: `step` then runs
exactly it, and what was invoked next before comes after it (notes/assumptions/3.md). -/
def State.withFetchWord (s : State) (nbits w : Nat) : State :=
  { s with pending := tableInput nbits w :: s.pending }

end Sys2Proof.Machine
end

