-- ==== Sys2Proof/Safety.lean ====
section
/-! DEFINITION. What claims about the block are stated in: safe states, the invariants of rule R33, the counting law
of rule R147, sequences of instructions, bit flips, candidate positions, and the source's own append loop. -/

namespace Sys2Proof.Safety

open Sys2Proof.Machine

/-- Mode `RUN`: neither flag is set (rule R37). A state that is not running is never a good final state (rule R165,
92_eei_decisions.md D6). -/
abbrev Running (s : State) : Prop := s.aborted = false ∧ s.qovf = false

/-- Running, with no byte of a frame collected: the next byte is offset 0 of a candidate (rule R130). -/
abbrev AtBoundary (s : State) : Prop := Running s ∧ s.rxbuf = []

/-- The invariants (I-1) to (I-6) of rule R33, and that an unbounded queue never overflows (rule R27). -/
structure BlockInv (s : State) : Prop where
  collected : s.rxcnt ≤ 17
  position : Running s → s.rxcnt = s.streamPos % 18
  queued : ∀ f ∈ s.q, verifyFrame f = true ∧ isCtrl f 0x19 = false ∧ isCtrl f 0x15 = false ∧ isCtrl f 0x59 = false
  depth : ∀ d, s.cfg.qdepth = some d → s.q.length ≤ d
  exclusive : ¬ (s.aborted = true ∧ s.qovf = true)
  stoppedEmpty : s.aborted = true ∨ s.qovf = true → s.rxcnt = 0
  unbounded : s.cfg.qdepth = none → s.qovf = false

/-- The counts of rule R147, extended to the stopped modes: bytes that were dropped gave no disposition, the frame that
overflowed was neither acknowledged nor queued, and each fatal signal is emitted once. -/
structure Counts (s : State) : Prop where
  dispositions : s.disps.length ≤ s.streamPos / 18 ∧ (Running s → s.disps.length = s.streamPos / 18)
  retx : s.reqs.count .retxReq = s.disps.count .crcFail
  resend : s.reqs.count .resendReq = s.disps.count .retx
  ack : s.reqs.count .ackReq + s.qovf.toNat = s.disps.count .app
  accepted : s.reqs.count .ackReq = s.q.length + s.deqCount
  peerAbort : s.reqs.count .peerAbort = s.aborted.toNat ∧ s.disps.count .nack = s.aborted.toNat
  overflow : s.reqs.count .qovfFault = s.qovf.toNat

/-- Applies a change of state to an outcome that is a next state. -/
def mapNext (g : State → State) : Host.Outcome State Fault Refusal → Host.Outcome State Fault Refusal
  | .next s => .next (g s)
  | .fault r => .fault r
  | .refused r => .refused r

/-- An outcome with what was returned to the caller left out. -/
def withoutResult (o : Host.Outcome State Fault Refusal) : Host.Outcome State Fault Refusal :=
  mapNext (answer .none) o

/-- Instructions one after the other, up to the first that does not give a next state. -/
def execAll : List Instr → State → Host.Outcome State Fault Refusal
  | [], s => .next s
  | i :: is, s =>
    match exec i s with
    | .next t => execAll is t
    | .fault r => .fault r
    | .refused r => .refused r

/-- The byte a `CRC_UPD` gives to the generator (rule R95). -/
def crcUpdByte : Instr → Option Byte
  | .crcUpd b => some b
  | _ => none

/-- The instructions that write `crc` (rules R21, R38; `CRC8` by its expansion). -/
def writesCrc : Instr → Bool
  | .reset => true
  | .crcClr => true
  | .crcUpd _ => true
  | .crc8 _ => true
  | _ => false

/-- The instructions that give bytes to the deframer: `RX_BYTE`, `RX_APPEND` and the arrival of a frame. -/
def receives : Instr → Bool
  | .rxByte _ | .rxAppend _ | .frame _ | .ack | .retx | .syncObserved | .fwUpdateReq | .fwUpdateRes | .deviceIdReq
  | .deviceIdRes | .fwLengthReq | .fwLengthRes | .readyForData | .updateSuccessful | .nack => true
  | _ => false

/-- How many bytes an instruction gives to `RX_BYTE` (rules R41, R140). -/
def bytesGiven : Instr → Nat
  | .rxByte _ => 1
  | .rxAppend bs => bs.length
  | .frame _ | .ack | .retx | .syncObserved | .fwUpdateReq | .fwUpdateRes | .deviceIdReq | .deviceIdRes | .fwLengthReq
  | .fwLengthRes | .readyForData | .updateSuccessful | .nack => 18
  | _ => 0

/-- The reserved select codes (rule R73). -/
def isReserved : Instr → Bool
  | .reserved8 | .reserved9 | .reservedA | .reservedB | .reservedC | .reservedD | .reservedE | .reservedF => true
  | _ => false

/-- 18 bytes with one of their 144 bits flipped, positions counted from bit 7 of offset 0 (rule R117). -/
def flipBit (w : Bytes 18) (i : Nat) : Bytes 18 :=
  ⟨w.1.modify (i / 8) fun x => x ^^^ (0x80#8 >>> (i % 8)), by simp [w.2]⟩

/-- The bytes at stream positions `18k` to `18k + 17` (rule R46). -/
def candidateAt (bs : List Byte) (k : Nat) : Bytes 18 :=
  ⟨List.ofFn fun i : Fin 18 => bs.getD (18 * k + i.val) 0, by simp⟩

/-- The opcodes of rule R66. -/
def opcodes : List Byte := [0x15, 0x19, 0x20, 0x31, 0x37, 0x3C, 0x3F, 0x42, 0x45, 0x48, 0x54, 0x59]

/-- The rows of rule R66: instruction, opcode, crc byte, disposition on receipt. -/
def controlTable : List (Instr × Byte × Byte × Disp) :=
  [ (.ack, 0x15, 0x27, .ack),          (.retx, 0x19, 0x3F, .retx),
    (.syncObserved, 0x20, 0x4D, .app), (.fwUpdateReq, 0x31, 0x6F, .app),
    (.fwUpdateRes, 0x37, 0x63, .app),  (.deviceIdReq, 0x3C, 0x75, .app),
    (.deviceIdRes, 0x3F, 0x73, .app),  (.fwLengthReq, 0x42, 0x89, .app),
    (.fwLengthRes, 0x45, 0x87, .app),  (.readyForData, 0x48, 0x9D, .app),
    (.updateSuccessful, 0x54, 0xA5, .app), (.nack, 0x59, 0xBF, .nack) ]

/-- The twelve constants of rule R66 as 144-bit numbers, each with its row of the opcode table. -/
def linkConstants : List (BitVec 144 × Instr) :=
  [ (0x0115FFFFFFFFFFFFFFFFFFFFFFFFFFFFFF27, .ack),         (0x0119FFFFFFFFFFFFFFFFFFFFFFFFFFFFFF3F, .retx),
    (0x0120FFFFFFFFFFFFFFFFFFFFFFFFFFFFFF4D, .syncObserved), (0x0131FFFFFFFFFFFFFFFFFFFFFFFFFFFFFF6F, .fwUpdateReq),
    (0x0137FFFFFFFFFFFFFFFFFFFFFFFFFFFFFF63, .fwUpdateRes), (0x013CFFFFFFFFFFFFFFFFFFFFFFFFFFFFFF75, .deviceIdReq),
    (0x013FFFFFFFFFFFFFFFFFFFFFFFFFFFFFFF73, .deviceIdRes), (0x0142FFFFFFFFFFFFFFFFFFFFFFFFFFFFFF89, .fwLengthReq),
    (0x0145FFFFFFFFFFFFFFFFFFFFFFFFFFFFFF87, .fwLengthRes), (0x0148FFFFFFFFFFFFFFFFFFFFFFFFFFFFFF9D, .readyForData),
    (0x0154FFFFFFFFFFFFFFFFFFFFFFFFFFFFFFA5, .updateSuccessful), (0x0159FFFFFFFFFFFFFFFFFFFFFFFFFFFFFFBF, .nack) ]

/-- The source's deframer, as 42_deframer.md quotes it: an unbounded buffer that a whole chunk is appended to. -/
structure SrcDeframer where
  buffer : List Byte
  queue : List Frame
  disps : List Disp
  reqs : List Req
  aborted : Bool
  deriving DecidableEq, Repr

/-- One candidate of the source's loop, in the order of its list: CRC, RETX, ACK, NACK, otherwise. -/
def SrcDeframer.take (d : SrcDeframer) (f : Frame) : SrcDeframer :=
  if !(crc8 (f.length :: f.payload.1) == f.crc) then
    { d with disps := d.disps ++ [.crcFail], reqs := d.reqs ++ [.retxReq] }
  else if ser f == ctrlBytes 0x19 0x3F then
    { d with disps := d.disps ++ [.retx], reqs := d.reqs ++ [.resendReq] }
  else if ser f == ctrlBytes 0x15 0x27 then
    { d with disps := d.disps ++ [.ack] }
  else if ser f == ctrlBytes 0x59 0xBF then
    { d with disps := d.disps ++ [.nack], reqs := d.reqs ++ [.peerAbort], aborted := true }
  else
    { d with disps := d.disps ++ [.app], queue := d.queue ++ [f], reqs := d.reqs ++ [.ackReq] }

/-- "While the buffer holds ≥18 bytes, consume exactly 18 bytes as one candidate frame", stopping at a NACK; the
first argument bounds the number of turns. -/
def SrcDeframer.loop : Nat → SrcDeframer → SrcDeframer
  | 0, d => d
  | n + 1, d =>
    if d.aborted then d
    else if h : 18 ≤ d.buffer.length then
      SrcDeframer.loop n
        (SrcDeframer.take { d with buffer := d.buffer.drop 18 } (splitBytes ⟨d.buffer.take 18, by simp [h]⟩))
    else d

/-- The source's `append(bytes)`: the whole chunk is appended, then the loop runs. -/
def SrcDeframer.append (bs : List Byte) (d : SrcDeframer) : SrcDeframer :=
  SrcDeframer.loop (d.buffer.length + bs.length) { d with buffer := d.buffer ++ bs }

/-- The source's view of a state of the block. -/
def srcView (s : State) : SrcDeframer := ⟨s.rxbuf, s.q, s.disps, s.reqs, s.aborted⟩

end Sys2Proof.Safety
end

