-- ==== Sys2Proof/Certificates/Slice0/Obligations.lean ====
section
/-! DEFINITION. The statements for the provers, by the files of the spec: encodings, CRC8 generator, frame codec,
deframer, exceptions, reset, whole machine. Beside the block's own state they speak of the model's records: `result`
is what rule R20 has an operation give back, `reqs` and `disps` are the histories of rule R34, `streamPos` is the
position of rule R31 (b) and `deqCount` the count of rule R147 (log entries 7 and 8). -/

open Sys2Proof Sys2Proof.Machine Sys2Proof.Safety

/-! ### Encodings and the step (30_encoding.md, 20_memory.md) -/

/-- Words written out from rule R71 and the opcode table decode to the operations they stand for, each field of a
word with its own value; the twelve constants of rule R66 decode to their rows, and a number that is none of them to the
generic frame. That a word is told apart by its width or as a frame from the link, and that a word of several rows has
the most specific row's name, are the model's choices (log entries 12 and 13). -/
def Obligations.WordsOfTheSpecDecode : Prop :=
  (decode (.op 4 0b0000) = .ok .reset ∧
    decode (.op 4 0b0001) = .ok .crcClr ∧
    decode (.op 12 0b001000010101) = .ok (.crcUpd 0x15) ∧
    decode (.op 145 (0b0011_00000111_01000 * 2 ^ 128 + 0xC0C1C2C3C4C5C6C7E8E9EAEBECEDEEEF)) = .ok (.encode 0x07 8
      ⟨[0xC0, 0xC1, 0xC2, 0xC3, 0xC4, 0xC5, 0xC6, 0xC7, 0xE8, 0xE9, 0xEA, 0xEB, 0xEC, 0xED, 0xEE, 0xEF], rfl⟩) ∧
    decode (.op 148 0x40102030405060708090A0B0C0D0E0F101112) = .ok (.decode
      ⟨[0x01, 0x02, 0x03, 0x04, 0x05, 0x06, 0x07, 0x08, 0x09, 0x0A, 0x0B, 0x0C, 0x0D, 0x0E, 0x0F, 0x10, 0x11, 0x12],
        rfl⟩) ∧
    decode (.op 148 0x507C0C1C2C3C4C5C6C7FFFFFFFFFFFFFFFFFB) = .ok (.verify
      ⟨0x07, ⟨[0xC0, 0xC1, 0xC2, 0xC3, 0xC4, 0xC5, 0xC6, 0xC7, 0xFF, 0xFF, 0xFF, 0xFF, 0xFF, 0xFF, 0xFF, 0xFF], rfl⟩,
        0xFB⟩) ∧
    decode (.op 12 0b011000100111) = .ok (.rxByte 0x27) ∧
    decode (.op 4 0b0111) = .ok .deq ∧
    decode (.op 4 0b1010) = .ok .reservedA ∧
    decode (.op 145 (0b0011_00000001_00001 * 2 ^ 128 + 0x19 * 2 ^ 120)) = .ok (.ctrl 0x19) ∧
    decode (.op 28 0x1201215) = .ok (.crc8 [0x01, 0x15]) ∧
    decode (.op 24 0x601637) = .ok (.rxAppend [0x01, 0x37])) ∧
  (∀ r ∈ linkConstants, decode (.link r.1) = .ok r.2) ∧
  decode (.link 0x0119FFFFFFFFFFFFFFFFFFFFFFFFFFFFFFC0) = .ok (.frame
    ⟨[0x01, 0x19, 0xFF, 0xFF, 0xFF, 0xFF, 0xFF, 0xFF, 0xFF, 0xFF, 0xFF, 0xFF, 0xFF, 0xFF, 0xFF, 0xFF, 0xFF, 0xC0], rfl⟩)

/-- Decode and encode agree: for every instruction and every value of its operands, the decoder reads the encoded
word as that instruction, in the spelling `Instr.canon` where several rows of the table share the word (log entry
12). No bit of an encoding is dropped. -/
def Obligations.DecodeOfEncode : Prop :=
  ∀ i : Instr, decode (encode i) = .ok i.canon

/-- What the decoder gives is spelt canonically (log entry 12), and its encoding is read back as the same instruction.
The environment's word is the very word the encoder writes, but for `CTRL`, where the two agree in the select code, the
length field, `n` and the opcode and may differ in the 120 bits of the payload bytes that `ENCODE` ignores. -/
def Obligations.DecodedInstructionsReadBack : Prop :=
  ∀ (x : Input) (i : Instr), decode x = .ok i →
    i.canon = i ∧ decode (encode i) = .ok i ∧ ((∀ o, i ≠ .ctrl o) → encode i = x) ∧
    ∀ o, i = .ctrl o → ∃ v e, x = .op 145 v ∧ encode i = .op 145 e ∧ v / 2 ^ 120 = e / 2 ^ 120

/-- The spellings that share a word do the same: the canonical one leaves the same state and stops alike, up to the
form in which the result is returned (rules R83, R119, R140; the choice of spelling is the model's, log entry 12). -/
def Obligations.SpellingsHaveTheSameEffect : Prop :=
  ∀ (i : Instr) (s : State), withoutResult (exec i.canon s) = withoutResult (exec i s)

/-- Reserved select codes are refused: each of the eight has a word, the word decodes to that code's own row, and
running it is refused by its code in every state; `ENCODE` with more than 16 payload bytes is refused likewise (rule
R73). -/
def Obligations.ReservedCodesAreRefused : Prop :=
  (∀ code : BitVec 4, 8 ≤ code.toNat → ∃ i, isReserved i = true ∧ decode (.op 4 code.toNat) = .ok i ∧
    encode i = .op 4 code.toNat ∧ ∀ s : State, exec i s = .refused (.reservedSelect code)) ∧
  (∀ i : Instr, isReserved i = true → ∃ code : BitVec 4, 8 ≤ code.toNat ∧ decode (.op 4 code.toNat) = .ok i) ∧
  ∀ (l : Byte) (n : BitVec 5) (p : Bytes 16) (s : State), 16 < n.toNat →
    exec (.encode l n p) s = .refused (.encodeTooLong n)

/-- A step takes the environment's next invocation and runs the instruction it decodes to; with nothing invoked the
block does nothing; what is no instruction is refused (rules R8, R25, R51; log entries 1, 2, 14). -/
def Obligations.StepRunsTheDecodedInstruction : Prop :=
  (∀ (s : State) (x : Input) (rest : List Input) (i : Instr), s.pending = x :: rest → decode x = .ok i →
    step s = exec i { s with pending := rest }) ∧
  (∀ s : State, s.pending = [] → step s = .next s) ∧
  (∀ (s : State) (x : Input) (rest : List Input) (e : DecodeError), s.pending = x :: rest → decode x = .error e →
    step s = .refused (.undecodable e))

/-- A word of the opcode table placed by `withFetchWord` is the next instruction to run, in the state as it was. -/
def Obligations.PlacedWordRunsNext : Prop :=
  ∀ (s : State) (nbits w : Nat) (i : Instr), decodeTableWord nbits w = some i →
    step (s.withFetchWord nbits w) = exec i s

/-- Every one of the 2^144 values has a disposition (rule R68): (a) a mismatching crc is `CRC_FAIL`, whatever else
the value looks like; (b) the control-frame shape with one of the 244 unlisted opcodes is `APP`; (c) what is not of
that shape is `APP`, whatever its opcode; (d) the all-zero frame is `APP`; (e) eighteen 0xFF bytes are `CRC_FAIL`. -/
def Obligations.EveryValueHasADisposition : Prop :=
  (∀ f : Frame, crc8 (f.length :: f.payload.1) ≠ f.crc → classify f = .crcFail) ∧
  (∀ (f : Frame) (op : Byte), crc8 (f.length :: f.payload.1) = f.crc → f.length = 1 →
    f.payload.1 = op :: List.replicate 15 0xFF → op ∉ opcodes → classify f = .app) ∧
  ((List.range 256).filter fun v => BitVec.ofNat 8 v ∉ opcodes).length = 244 ∧
  (∀ f : Frame, crc8 (f.length :: f.payload.1) = f.crc →
    f.length ≠ 1 ∨ f.payload.1.drop 1 ≠ List.replicate 15 0xFF → classify f = .app) ∧
  (crc8 (List.replicate 17 0x00) = 0x00 ∧
    ∀ f : Frame, (ser f).1 = List.replicate 18 0x00 → classify f = .app ∧ f.length = 0) ∧
  (crc8 (List.replicate 17 0xFF) = 0x1B ∧
    ∀ f : Frame, (ser f).1 = List.replicate 18 0xFF → classify f = .crcFail)

/-- The opcode map (rule R67): `CRC_FAIL` exactly when the crc byte differs from CRC8 of offsets 0 to 16; else
`RETX`, `ACK`, `NACK` exactly for the three constants of rule R66; anything else is `APP`; and once the crc is
correct, being the constant is the control-frame test on offsets 0 to 16 alone. -/
def Obligations.OpcodeMap : Prop :=
  ∀ f : Frame,
    (classify f = .crcFail ↔ crc8 ((ser f).1.take 17) ≠ f.crc) ∧
    (classify f = .retx ↔ ser f = ctrlBytes 0x19 0x3F) ∧
    (classify f = .ack ↔ ser f = ctrlBytes 0x15 0x27) ∧
    (classify f = .nack ↔ ser f = ctrlBytes 0x59 0xBF) ∧
    (classify f = .app ↔ crc8 ((ser f).1.take 17) = f.crc ∧ ser f ≠ ctrlBytes 0x19 0x3F ∧
      ser f ≠ ctrlBytes 0x15 0x27 ∧ ser f ≠ ctrlBytes 0x59 0xBF) ∧
    (crc8 ((ser f).1.take 17) = f.crc → (ser f = ctrlBytes 0x19 0x3F ↔ isCtrl f 0x19 = true))

/-- The twelve control frames (rule R66): the word of each row is the 18-byte constant the table lists, and the
arrival of that frame at a frame boundary, with room in the queue, completes with the disposal the table lists. The
arrival of a frame as an instruction is the model's reading (log entry 10). -/
def Obligations.TwelveControlFrames : Prop :=
  ∀ r ∈ controlTable,
    encode r.1 = .link (BitVec.ofNat 144 (numberOf (ctrlBytes r.2.1 r.2.2.1).1)) ∧
    ∀ s : State, AtBoundary s → hasRoom s = true →
      exec r.1 s = .next { s with
        q := s.q ++ (if r.2.2.2 = .app then [decodeFrame (ctrlBytes r.2.1 r.2.2.1)] else [])
        aborted := decide (r.2.2.2 = .nack)
        result := .disps [r.2.2.2]
        reqs := s.reqs ++ (match r.2.2.2 with
          | .retx => [.resendReq]
          | .nack => [.peerAbort]
          | .app => [.ackReq]
          | _ => [])
        disps := s.disps ++ [r.2.2.2]
        streamPos := s.streamPos + 18 }

/-! ### The CRC8 generator (40_crc8.md) -/

/-- One bit-step and one byte-step (rules R91, R92), the bit-step as arithmetic on numbers, with the rules' worked
examples. -/
def Obligations.CrcBitStepAndByteStep : Prop :=
  (∀ c : Byte, (crcBit c).toNat = (2 * c.toNat % 256) ^^^ (if 128 ≤ c.toNat then 7 else 0)) ∧
  crcBit 0x80 = 0x07 ∧ crcBit 0x40 = 0x80 ∧ crcBit 0xFF = 0xF9 ∧
  (∀ c b : Byte,
    crcByte c b = crcBit (crcBit (crcBit (crcBit (crcBit (crcBit (crcBit (crcBit (c ^^^ b))))))))) ∧
  crcByte 0x00 0x01 = 0x07 ∧ crcByte 0x00 0x80 = 0x89 ∧ crcByte 0x00 0xFF = 0xF3

/-- CRC8 of a sequence (rule R93): 0x00 for the empty one, bytes in order, the register after the last byte; with
the rule's worked examples. -/
def Obligations.CrcOfASequence : Prop :=
  crc8 [] = 0x00 ∧ (∀ (bs : List Byte) (b : Byte), crc8 (bs ++ [b]) = crcByte (crc8 bs) b) ∧
  crc8 [0x00] = 0x00 ∧ crc8 [0x01] = 0x07 ∧ crc8 [0x01, 0x15] = 0x7E ∧
  crc8 [0x31, 0x32, 0x33, 0x34, 0x35, 0x36, 0x37, 0x38, 0x39] = 0xF4

/-- `CRC_CLR` (rule R94): it completes in every state, sets `crc` to 0x00 and touches nothing else of the block. -/
def Obligations.CrcClrClearsTheRegister : Prop :=
  ∀ s : State, exec .crcClr s = .next { s with crc := 0x00, result := .none }

/-- `CRC_UPD b` (rule R95): it completes in every state, folds the byte into `crc` and touches nothing else. -/
def Obligations.CrcUpdFoldsOneByte : Prop :=
  ∀ (b : Byte) (s : State), exec (.crcUpd b) s = .next { s with crc := crcByte s.crc b, result := .none }

/-- Reading `crc` (rule R96): whatever else ran since a `CRC_CLR` or `RESET`, the value read through `STATUS.CRC` is
the CRC8 of the bytes given by `CRC_UPD` since, in order. -/
def Obligations.CrcReadsBackTheBytesGiven : Prop :=
  ∀ (start : Instr) (is : List Instr) (s t : State), start = .crcClr ∨ start = .reset →
    (∀ i ∈ is, ¬ (i = .crcClr ∨ i = .reset ∨ ∃ bs, i = .crc8 bs)) →
    execAll (start :: is) s = .next t → t.status.crc = crc8 (is.filterMap crcUpdByte)

/-- The pseudo-operation `CRC8 s` (rules R83, R97): it completes in every state, its result is `CRC8(s)`, which it
leaves in `crc`, and it is its expansion: `CRC_CLR`, one `CRC_UPD` per byte, a read of `crc`. That it is one step, with
no other operation between those of its expansion, is the model's choice (log entry 11). -/
def Obligations.Crc8IsItsExpansion : Prop :=
  ∀ (bs : List Byte) (s : State),
    exec (.crc8 bs) s = .next { s with crc := crc8 bs, result := .crcValue (crc8 bs) } ∧
    ∃ t, execAll (.crcClr :: bs.map .crcUpd) s = .next t ∧
      exec (.crc8 bs) s = .next { t with result := .crcValue t.status.crc }

/-- The table form (rule R99): `CrcByte(c, b) = T[c ^ b]`, for the rule's 256-entry table. -/
def Obligations.CrcTableAgrees : Prop :=
  crcTable.length = 256 ∧ (∀ v : Byte, crcTable[v.toNat]? = some (crcByte 0x00 v)) ∧
  ∀ c b : Byte, crcTable[(c ^^^ b).toNat]? = some (crcByte c b)

/-- The laws (L-1) to (L-6) of rule R100. -/
def Obligations.CrcLaws : Prop :=
  ((∀ a b : Byte, crcBit (a ^^^ b) = crcBit a ^^^ crcBit b) ∧ crcBit 0 = 0) ∧
  (Function.Bijective crcBit ∧ (∀ c : Byte, (crcBit c).getLsbD 0 = c.getLsbD 7) ∧
    (∀ b : Byte, Function.Bijective fun c => crcByte c b) ∧ Function.Bijective fun v => crcByte 0x00 v) ∧
  (∀ s t : List Byte, s.length = t.length → crc8 (List.zipWith (· ^^^ ·) s t) = crc8 s ^^^ crc8 t) ∧
  ((∀ (k : Nat) (s : List Byte), crc8 (List.replicate k 0x00 ++ s) = crc8 s) ∧
    ∀ k : Nat, crc8 (List.replicate k 0x00) = 0x00) ∧
  ((∀ s : List Byte, crc8 (s ++ [crc8 s]) = 0x00) ∧
    ∀ (s : List Byte) (x : Byte), crc8 (s ++ [x]) = 0x00 ↔ x = crc8 s) ∧
  (crcBit^[127] 0x01 = 0x01 ∧ ∀ k : Nat, 0 < k → k < 127 → crcBit^[k] 0x01 ≠ 0x01)

/-- The register is private to the generator (rule R21): every other instruction neither reads nor writes it, so
running it with another value in `crc` gives the same outcome with that value still there. -/
def Obligations.CrcRegisterIsPrivate : Prop :=
  ∀ (i : Instr) (c : Byte) (s : State), writesCrc i = false →
    exec i (setCrc c s) = mapNext (setCrc c) (exec i s)

/-! ### The frame codec (41_frame_codec.md) -/

/-- `ENCODE` (rule R112): with `n` up to 16 it completes in every state and returns the length byte as given, the
first `n` payload bytes padded with 0xFF to 16, and the CRC8 of those 17 bytes; the result verifies; nothing else
changes. With a larger `n` it is refused. -/
def Obligations.EncodeBuildsTheFrame : Prop :=
  ∀ (l : Byte) (n : BitVec 5) (p : Bytes 16) (s : State),
    (n.toNat ≤ 16 → ∃ w : Bytes 18,
      w.1 = l :: (p.1.take n.toNat ++ List.replicate (16 - n.toNat) 0xFF) ++
        [crc8 (l :: (p.1.take n.toNat ++ List.replicate (16 - n.toNat) 0xFF))] ∧
      exec (.encode l n p) s = .next { s with result := .bytes w } ∧ verifyFrame (decodeFrame w) = true) ∧
    (16 < n.toNat → exec (.encode l n p) s = .refused (.encodeTooLong n))

/-- `DECODE` (rule R113): it completes in every state on any 18 bytes, length from offset 0, the payload at full
width from offsets 1 to 16, crc from offset 17, unchecked; nothing else changes. -/
def Obligations.DecodeSplitsWithoutValidation : Prop :=
  ∀ (w : Bytes 18) (s : State), ∃ f : Frame,
    exec (.decode w) s = .next { s with result := .frame f } ∧
    w.1[0]? = some f.length ∧ (∀ i, i < 16 → w.1[i + 1]? = f.payload.1[i]?) ∧ w.1[17]? = some f.crc

/-- `VERIFY` (rule R114): it completes in every state and returns whether CRC8 of length and payload is the stored
crc, equivalently whether CRC8 of all 18 bytes is 0x00; nothing else changes. -/
def Obligations.VerifyRecomputesTheCrc : Prop :=
  (∀ (f : Frame) (s : State),
    exec (.verify f) s = .next { s with result := .verdict (decide (crc8 (f.length :: f.payload.1) = f.crc)) }) ∧
  (∀ f : Frame, verifyFrame f = true ↔ crc8 (ser f).1 = 0x00) ∧
  verifyFrame (decodeFrame ⟨List.replicate 18 0x00, rfl⟩) = true ∧
  verifyFrame (decodeFrame ⟨List.replicate 18 0xFF, rfl⟩) = false

/-- `CTRL op` (rule R119): it completes in every state, is `ENCODE 1, [op]`, returns the control-frame pattern of
`op` with its CRC8, and the result passes the control-frame test for `op` and verifies; for the twelve listed
opcodes it is the constant of rule R66. -/
def Obligations.CtrlBuildsTheControlFrame : Prop :=
  ∀ (op : Byte) (s : State), ∃ w : Bytes 18,
    w.1 = 0x01 :: op :: List.replicate 15 0xFF ++ [crc8 (0x01 :: op :: List.replicate 15 0xFF)] ∧
    exec (.ctrl op) s = .next { s with result := .bytes w } ∧
    (∀ p : Bytes 16, p.1[0]? = some op → exec (.encode 1 1 p) s = exec (.ctrl op) s) ∧
    isCtrl (decodeFrame w) op = true ∧ verifyFrame (decodeFrame w) = true ∧
    ∀ r ∈ controlTable, r.2.1 = op → w = ctrlBytes r.2.1 r.2.2.1

/-- Round trip (rule R116): decoding an encoded frame gives back the length and the padded payload, with their CRC8,
and verifies; `Ser` and `Decode` are inverse to each other. -/
def Obligations.CodecRoundTrip : Prop :=
  (∀ (l : Byte) (p : List Byte) (h : p.length ≤ 16),
    (decodeFrame (encodeFrame l p h)).length = l ∧
    (decodeFrame (encodeFrame l p h)).payload.1 = p ++ List.replicate (16 - p.length) 0xFF ∧
    (decodeFrame (encodeFrame l p h)).crc = crc8 (l :: (p ++ List.replicate (16 - p.length) 0xFF)) ∧
    verifyFrame (decodeFrame (encodeFrame l p h)) = true) ∧
  (∀ w : Bytes 18, ser (decodeFrame w) = w) ∧ ∀ f : Frame, decodeFrame (ser f) = f

/-- Error detection (rule R117): flipping any one of the 144 bits of a frame that verifies makes it fail; of two
flipped bits, exactly the pairs 127 positions apart go undetected; and of the 256 crc bytes a length and payload may
carry, exactly one verifies. -/
def Obligations.BitErrorsAreDetected : Prop :=
  (∀ (f : Frame) (i : Nat), verifyFrame f = true → i < 144 →
    verifyFrame (decodeFrame (flipBit (ser f) i)) = false) ∧
  (∀ (f : Frame) (i j : Nat), verifyFrame f = true → i < j → j < 144 →
    (verifyFrame (decodeFrame (flipBit (flipBit (ser f) i) j)) = true ↔ j = i + 127)) ∧
  ∀ (l : Byte) (p : Bytes 16), ∃! c : Byte, verifyFrame ⟨l, p, c⟩ = true

/-- The codec has no state (rules R49, R110 and the file's opening): its operations change nothing but the result
returned, and what they return, or that they refuse, does not depend on the state. -/
def Obligations.CodecIsPure : Prop :=
  ∀ i : Instr, (∃ l n p, i = .encode l n p) ∨ (∃ w, i = .decode w) ∨ (∃ f, i = .verify f) ∨ (∃ o, i = .ctrl o) →
    (∃ r : Result, ∀ s : State, exec i s = .next { s with result := r }) ∨
    (∃ r : Refusal, ∀ s : State, exec i s = .refused r)

/-- Data that looks like control (rule R203): a two-byte chunk `op, 0xFF` with length field 1 encodes to the control
frame `CTRL op`, byte for byte, and is classified as `RETX`, `ACK` or `NACK` for the three opcodes the deframer acts
on; and a one-byte payload cannot be told from the same byte followed by 0xFF bytes. -/
def Obligations.DataCanLookLikeControl : Prop :=
  (∀ (op : Byte) (p : Bytes 16) (s : State), p.1.take 2 = [op, 0xFF] → ∃ w : Bytes 18,
    exec (.encode 1 2 p) s = exec (.ctrl op) s ∧ exec (.encode 1 2 p) s = .next { s with result := .bytes w } ∧
    (op = 0x19 → classify (decodeFrame w) = .retx) ∧ (op = 0x15 → classify (decodeFrame w) = .ack) ∧
    (op = 0x59 → classify (decodeFrame w) = .nack)) ∧
  ∀ (l b : Byte) (n : BitVec 5) (p : Bytes 16) (s : State), 1 ≤ n.toNat → n.toNat ≤ 16 →
    p.1.take n.toNat = b :: List.replicate (n.toNat - 1) 0xFF → exec (.encode l n p) s = exec (.encode l 1 p) s

/-! ### The deframer (42_deframer.md) -/

/-- `RX_BYTE`, collecting (rule R131): in mode `RUN` with fewer than 17 bytes held the byte is stored at `rxcnt`,
`rxcnt` advances by one, nothing is returned or emitted and the queue is not touched. -/
def Obligations.RxByteCollects : Prop :=
  ∀ (b : Byte) (s : State), Running s → s.rxcnt < 17 →
    exec (.rxByte b) s =
      .next { s with rxbuf := s.rxbuf ++ [b], streamPos := s.streamPos + 1, result := .none } ∧
    (s.rxbuf ++ [b])[s.rxcnt]? = some b

/-- `RX_BYTE`, completing (rule R132): in mode `RUN` with 17 bytes held the 18 bytes are consumed, the disposition of
their frame is returned, exactly one disposition results and at most one request is emitted. -/
def Obligations.RxByteCompletesACandidate : Prop :=
  ∀ (b : Byte) (s : State) (w : Bytes 18), Running s → s.rxbuf ++ [b] = w.1 →
    ∃ t, exec (.rxByte b) s = .next t ∧ t.rxcnt = 0 ∧ t.result = .disp (classify (decodeFrame w)) ∧
      t.disps = s.disps ++ [classify (decodeFrame w)] ∧ (t.reqs = s.reqs ∨ ∃ r, t.reqs = s.reqs ++ [r]) ∧
      t.crc = s.crc

/-- Disposal `CRC_FAIL` (rule R134): the candidate is discarded, `RETX_REQ` is emitted and the deframer goes on, as
often as it happens; nothing else changes. -/
def Obligations.CrcFailDisposal : Prop :=
  ∀ (b : Byte) (s : State) (w : Bytes 18), Running s → s.rxbuf ++ [b] = w.1 → verifyFrame (decodeFrame w) = false →
    exec (.rxByte b) s = .next { s with
      rxbuf := [], streamPos := s.streamPos + 1, result := .disp .crcFail
      reqs := s.reqs ++ [.retxReq], disps := s.disps ++ [.crcFail] }

/-- Disposal `RETX` (rule R135): the constant is discarded and `RESEND_REQ` is emitted; nothing is queued or
acknowledged. -/
def Obligations.RetxDisposal : Prop :=
  ∀ (b : Byte) (s : State), Running s → s.rxbuf ++ [b] = [0x01, 0x19] ++ List.replicate 15 0xFF ++ [0x3F] →
    exec (.rxByte b) s = .next { s with
      rxbuf := [], streamPos := s.streamPos + 1, result := .disp .retx
      reqs := s.reqs ++ [.resendReq], disps := s.disps ++ [.retx] }

/-- Disposal `ACK` (rule R136): the constant is discarded; nothing is queued or emitted. -/
def Obligations.AckDisposal : Prop :=
  ∀ (b : Byte) (s : State), Running s → s.rxbuf ++ [b] = [0x01, 0x15] ++ List.replicate 15 0xFF ++ [0x27] →
    exec (.rxByte b) s = .next { s with
      rxbuf := [], streamPos := s.streamPos + 1, result := .disp .ack, disps := s.disps ++ [.ack] }

/-- Disposal `NACK` (rule R137): the constant is discarded, `aborted` is set, `PEER_ABORT` is emitted, the queued
frames stay; and whatever is invoked afterwards short of `RESET`, no further request is emitted. -/
def Obligations.NackDisposal : Prop :=
  ∀ (b : Byte) (s : State), Running s → s.rxbuf ++ [b] = [0x01, 0x59] ++ List.replicate 15 0xFF ++ [0xBF] →
    ∃ t, t = { s with
        rxbuf := [], aborted := true, streamPos := s.streamPos + 1, result := .disp .nack
        reqs := s.reqs ++ [.peerAbort], disps := s.disps ++ [.nack] } ∧
      exec (.rxByte b) s = .next t ∧ t.mode = .aborted ∧
      ∀ (is : List Instr) (u : State), .reset ∉ is → execAll is t = .next u → u.reqs = t.reqs ∧ u.mode = .aborted

/-- Disposal `APP` (rule R138): with room in the queue the whole frame is pushed at the tail and `ACK_REQ` is
emitted, a duplicate too; with a full queue it is the exception `QueueOverflow` instead. -/
def Obligations.AppDisposal : Prop :=
  ∀ (b : Byte) (s : State) (w : Bytes 18), Running s → s.rxbuf ++ [b] = w.1 → classify (decodeFrame w) = .app →
    ((∀ d, s.cfg.qdepth = some d → s.q.length < d) →
      exec (.rxByte b) s = .next { s with
        rxbuf := [], q := s.q ++ [decodeFrame w], streamPos := s.streamPos + 1, result := .disp .app
        reqs := s.reqs ++ [.ackReq], disps := s.disps ++ [.app] }) ∧
    (∀ d, s.cfg.qdepth = some d → s.q.length = d →
      exec (.rxByte b) s = .next { s with
        rxbuf := [], qovf := true, streamPos := s.streamPos + 1, result := .disp .app
        reqs := s.reqs ++ [.qovfFault], disps := s.disps ++ [.app] })

/-- `RX_BYTE`, stopped (rule R139): the byte is dropped, no state changes, nothing is emitted, whatever it is and
however many arrive; only the stream position, which is no state of the block, counts them (rule R31 (b)). -/
def Obligations.StoppedDeframerDropsBytes : Prop :=
  ∀ s : State, s.mode = .aborted ∨ s.mode = .fault →
    (∀ b : Byte, exec (.rxByte b) s = .next { s with streamPos := s.streamPos + 1, result := .dropped }) ∧
    ∀ bs : List Byte,
      exec (.rxAppend bs) s = .next { s with streamPos := s.streamPos + bs.length, result := .disps [] }

/-- `RX_APPEND` (rule R140): it completes in every state; it is one `RX_BYTE` per byte in order, and its result is
the list of the dispositions those returned. The empty chunk does nothing. -/
def Obligations.RxAppendIsItsExpansion : Prop :=
  ∀ (bs : List Byte) (s : State), ∃ (t : State) (ds : List Disp),
    exec (.rxAppend bs) s = .next t ∧ t.result = .disps ds ∧ t.disps = s.disps ++ ds ∧
    withoutResult (execAll (bs.map .rxByte) s) = withoutResult (.next t) ∧
    (bs = [] → t = { s with result := .disps [] })

/-- Streaming equivalence (rule R141): from any state, a chunk and any way of cutting it end in the same state up to
the form of the last result, with the same dispositions and requests. Of `18k + r` bytes from a frame boundary,
unless the deframer stops among them, exactly `k` candidates are disposed of and `r` bytes are held; with an unbounded
queue it does not stop if none of the `k` candidates is a NACK. -/
def Obligations.StreamingEquivalence : Prop :=
  (∀ (chunks : List (List Byte)) (s : State),
    withoutResult (execAll (chunks.map .rxAppend) s) = withoutResult (exec (.rxAppend chunks.flatten) s)) ∧
  ∀ (bs : List Byte) (k r : Nat) (s : State), AtBoundary s → bs.length = 18 * k + r → r < 18 →
    ∃ t, exec (.rxAppend bs) s = .next t ∧
      (Running t → t.disps.length = s.disps.length + k ∧ t.rxcnt = r) ∧
      (s.cfg.qdepth = none → (∀ j, j < k → classify (decodeFrame (candidateAt bs j)) ≠ .nack) → Running t)

/-- Frame alignment (rule R46): from a frame boundary, and as long as the deframer is not stopped, candidate `k` is
exactly the bytes at stream positions `18k` to `18k + 17`, whatever the bytes are; the rest is held. -/
def Obligations.CandidatesAreCutAtMultiplesOf18 : Prop :=
  ∀ (bs : List Byte) (s t : State), AtBoundary s → exec (.rxAppend bs) s = .next t → Running t →
    t.disps = s.disps ++ (List.range (bs.length / 18)).map (fun k => classify (decodeFrame (candidateAt bs k))) ∧
    t.rxbuf = bs.drop (18 * (bs.length / 18))

/-- The byte-serial deframer is the source's `append`: for an unbounded queue, giving a chunk byte by byte leaves the
queue, the dispositions, the requests and the abort of the source's own loop ("appended to an internal buffer. While
the buffer holds ≥18 bytes, consume exactly 18 bytes"), and the same buffer unless a NACK stopped it. -/
def Obligations.DeframerRefinesTheSourceLoop : Prop :=
  ∀ (bs : List Byte) (s : State), Running s → s.rxcnt ≤ 17 → s.cfg.qdepth = none →
    ∃ t, exec (.rxAppend bs) s = .next t ∧
      t.q = (SrcDeframer.append bs (srcView s)).queue ∧
      t.disps = (SrcDeframer.append bs (srcView s)).disps ∧
      t.reqs = (SrcDeframer.append bs (srcView s)).reqs ∧
      t.aborted = (SrcDeframer.append bs (srcView s)).aborted ∧
      (t.aborted = false → t.rxbuf = (SrcDeframer.append bs (srcView s)).buffer) ∧
      t.crc = s.crc

/-- Frames keep their order (rules R28, R52): application frames sent one after the other from a frame boundary to an
unbounded queue are queued behind those already there, in order, each acknowledged. -/
def Obligations.FramesAreQueuedInOrder : Prop :=
  ∀ (fs : List Frame) (s : State), AtBoundary s → s.cfg.qdepth = none → (∀ f ∈ fs, classify f = .app) →
    ∃ t, exec (.rxAppend (fs.flatMap fun f => (ser f).1)) s = .next t ∧ t.q = s.q ++ fs ∧ AtBoundary t ∧
      t.reqs = s.reqs ++ List.replicate fs.length .ackReq ∧ t.disps = s.disps ++ List.replicate fs.length .app

/-- `DEQ` (rule R142): it completes in every state and mode; on an empty queue it returns `empty` and changes
nothing; else it removes and returns the oldest frame; nothing else of the block changes and nothing is emitted. -/
def Obligations.DeqTakesTheOldestFrame : Prop :=
  ∀ s : State,
    (s.q = [] → exec .deq s = .next { s with result := .empty }) ∧
    (∀ (f : Frame) (fs : List Frame), s.q = f :: fs →
      exec .deq s = .next { s with q := fs, result := .frame f, deqCount := s.deqCount + 1 })

/-- The queue is drained from the head (rule R28): after `k` of its frames are taken the rest stand in their order,
and the next `DEQ` returns the frame that stood at place `k`. -/
def Obligations.QueueIsDrainedInOrder : Prop :=
  ∀ (k : Nat) (s : State) (f : Frame), s.q[k]? = some f →
    ∃ t u, execAll (List.replicate k .deq) s = .next t ∧ t.q = s.q.drop k ∧
      exec .deq t = .next u ∧ u.result = .frame f ∧ u.reqs = s.reqs

/-- One RETX per bad frame (rule R145): a candidate that fails `Verify` followed by a valid application frame gives
`CRC_FAIL`, `APP`, the requests `RETX_REQ`, `ACK_REQ` in that order, and the queue gains exactly the valid frame. -/
def Obligations.OneRetxPerBadFrame : Prop :=
  ∀ (bad : Bytes 18) (f : Frame) (s : State), AtBoundary s → hasRoom s = true →
    verifyFrame (decodeFrame bad) = false → classify f = .app →
    exec (.rxAppend (bad.1 ++ (ser f).1)) s = .next { s with
      q := s.q ++ [f], result := .disps [.crcFail, .app], streamPos := s.streamPos + 36
      reqs := s.reqs ++ [.retxReq, .ackReq], disps := s.disps ++ [.crcFail, .app] }

/-- The arrival of a frame (row FRAME, rules R41, R60): it completes in every state and is its 18 bytes given in
frame-offset order as one chunk, so at a frame boundary it is one candidate with one disposition. That a data frame
of the table runs as its arrival is the model's choice (log entry 10). -/
def Obligations.FrameArrivalIsItsBytes : Prop :=
  ∀ (w : Bytes 18) (s : State),
    exec (.frame w) s = exec (.rxAppend w.1) s ∧
    ∃ t, exec (.frame w) s = .next t ∧
      (AtBoundary s → t.disps = s.disps ++ [classify (decodeFrame w)] ∧ t.rxbuf = [] ∧ t.crc = s.crc)

/-! ### Exceptions, requests and modes (60_exceptions.md) -/

/-- Which request is emitted when (rules R160, R167): by `RX_BYTE` in the completing case only, at most one per
candidate, the one its disposition and the queue select; no other operation emits any. -/
def Obligations.RequestsFollowDispositions : Prop :=
  (∀ (b : Byte) (s t : State), exec (.rxByte b) s = .next t → ¬ Running s ∨ s.rxcnt < 17 → t.reqs = s.reqs) ∧
  (∀ (b : Byte) (s t : State) (w : Bytes 18), exec (.rxByte b) s = .next t → Running s → s.rxbuf ++ [b] = w.1 →
    t.reqs = s.reqs ++
      (match classify (decodeFrame w) with
        | .crcFail => [.retxReq]
        | .retx => [.resendReq]
        | .ack => []
        | .nack => [.peerAbort]
        | .app => if hasRoom s then [.ackReq] else [.qovfFault])) ∧
  (∀ (i : Instr) (s t : State), receives i = false → i ≠ .reset → exec i s = .next t → t.reqs = s.reqs)

/-- `QueueOverflow` (rules R27, R165): only for a finite `QDEPTH` and a full queue; the frame is neither queued nor
acknowledged, `qovf` is set, `QOVF_FAULT` emitted, the disposition is still `APP`, and the deframer is in mode
`FAULT`, where it drops every later byte. With an unbounded queue `qovf` is never set. -/
def Obligations.QueueOverflowStopsTheDeframer : Prop :=
  (∀ (b : Byte) (s : State) (w : Bytes 18) (d : Nat), Running s → s.rxbuf ++ [b] = w.1 →
    classify (decodeFrame w) = .app → s.cfg.qdepth = some d → s.q.length = d →
    ∃ t, exec (.rxByte b) s = .next t ∧ t.q = s.q ∧ t.rxcnt = 0 ∧ t.mode = .fault ∧ t.aborted = false ∧
      t.result = .disp .app ∧ t.reqs = s.reqs ++ [.qovfFault] ∧
      ∀ c : Byte, exec (.rxByte c) t = .next { t with streamPos := t.streamPos + 1, result := .dropped }) ∧
  (∀ (i : Instr) (s t : State), exec i s = .next t → s.qovf = false → t.qovf = true →
    receives i = true ∧ ∃ d, s.cfg.qdepth = some d ∧ d ≤ t.q.length)

/-- The modes (rule R37): they are the three values of the two flags, which are never both set; received bytes have
an effect in `RUN` only; `ABORTED` and `FAULT` are absorbing, and only `RESET` leaves them. -/
def Obligations.StoppedModesAreAbsorbing : Prop :=
  (∀ s : State, BlockInv s →
    (s.mode = .run ↔ s.aborted = false ∧ s.qovf = false) ∧ (s.mode = .aborted ↔ s.aborted = true) ∧
    (s.mode = .fault ↔ s.qovf = true) ∧ ¬ (s.aborted = true ∧ s.qovf = true)) ∧
  (∀ (i : Instr) (s : State), s.mode ≠ .run → receives i = true →
    ∃ r, exec i s = .next { s with streamPos := s.streamPos + bytesGiven i, result := r }) ∧
  (∀ (i : Instr) (s t : State), s.mode ≠ .run → i ≠ .reset → exec i s = .next t →
    t.mode = s.mode ∧ t.rxbuf = s.rxbuf ∧ t.reqs = s.reqs) ∧
  ∀ s : State, ∃ t, exec .reset s = .next t ∧ t.mode = .run

/-- Requests are events (rules R34, R170): the output history only grows at its end, until `RESET` starts it again;
nothing emitted is taken back or emitted anew. -/
def Obligations.OutputHistoryOnlyGrows : Prop :=
  ∀ (i : Instr) (s t : State), i ≠ .reset → exec i s = .next t →
    (∃ rs, t.reqs = s.reqs ++ rs) ∧ (∃ ds, t.disps = s.disps ++ ds)

/-! ### Reset and status (70_reset_and_hazards.md, 10_state.md) -/

/-- `RESET` (rule R190): it completes in every state and mode and leaves `crc` 0x00, no byte held, the queue empty
and both flags clear, with the output history started again (rule R35); the parameter and the environment's
invocations, which are not the block's, stay (the model's choice, log entries 3 and 6). No other instruction leaves the modes `ABORTED` and `FAULT`. -/
def Obligations.ResetClearsTheBlock : Prop :=
  (∀ s : State, exec .reset s = .next { State.reset with cfg := s.cfg, pending := s.pending }) ∧
  ∀ (i : Instr) (s t : State), s.mode = .aborted ∨ s.mode = .fault → i ≠ .reset → exec i s = .next t →
    t.mode ≠ .run

/-- After reset (rule R35): `crc` 0x00, `rxcnt` 0, the queue empty, the flags 0, the output history empty, and so the
mode is `RUN`. -/
def Obligations.ResetValues : Prop :=
  State.reset.crc = 0x00 ∧ State.reset.rxcnt = 0 ∧ State.reset.q = [] ∧ State.reset.aborted = false ∧
  State.reset.qovf = false ∧ State.reset.reqs = [] ∧ State.reset.disps = [] ∧ State.reset.mode = .run

/-- `STATUS` (rule R29): its fields show `rxcnt`, the flags, whether `q` is empty, its length, and `crc`, and have
the reset values the rule lists. -/
def Obligations.StatusShowsTheState : Prop :=
  (∀ s : State, BlockInv s → s.status.rxcnt.toNat = s.rxcnt ∧ s.status.aborted = s.aborted ∧ s.status.qovf = s.qovf ∧
    (s.status.qempty = true ↔ s.q.length = 0) ∧ s.status.qcount = s.q.length ∧ s.status.crc = s.crc ∧
    (s.cfg.qdepth = none → s.status.qovf = false)) ∧
  State.reset.status = ⟨0, false, false, true, 0, 0x00⟩

/-! ### The whole machine (10_state.md) -/

/-- The read and write sets (rule R38): only `RESET` and the CRC operations write `crc`; only `RESET` and what gives
bytes to the deframer write `rxbuf` and the flags and emit; only these and `DEQ` write `q`. That no operation writes the
parameter or the environment's invocations, `RESET` included, is the model's choice (log entries 3 and 6). -/
def Obligations.WriteSets : Prop :=
  ∀ (i : Instr) (s t : State), exec i s = .next t →
    (writesCrc i = false → t.crc = s.crc) ∧
    (i ≠ .reset → receives i = false →
      t.rxbuf = s.rxbuf ∧ t.aborted = s.aborted ∧ t.qovf = s.qovf ∧ t.reqs = s.reqs ∧ t.disps = s.disps ∧
      t.streamPos = s.streamPos) ∧
    (i ≠ .reset → receives i = false → i ≠ .deq → t.q = s.q ∧ t.deqCount = s.deqCount) ∧
    t.cfg = s.cfg ∧ t.pending = s.pending

/-- Nothing blocks and everything ends (rules R160, R198, R210): every instruction but the reserved codes and an
ill-formed `ENCODE` completes with a next state in every state. That no step ever faults is the model's reading of the
exceptions as next states, its type of faults being empty (log entry 24). -/
def Obligations.EveryOperationCompletes : Prop :=
  (∀ (i : Instr) (s : State), i.wellFormed = true → isReserved i = false → ∃ t, exec i s = .next t) ∧
  ∀ (s : State) (r : Fault), step s ≠ .fault r

/-- The invariants (I-1) to (I-6) of rule R33 hold at reset, for every value of the parameter and whatever the
environment invokes. -/
def Obligations.InvariantsHoldAtReset : Prop :=
  ∀ (c : Config) (p : List Input), BlockInv { State.reset with cfg := c, pending := p } ∧
    Counts { State.reset with cfg := c, pending := p }

/-- Every step keeps the invariants (I-1) to (I-6) of rule R33, from every state that has them. -/
def Obligations.InvariantsKeptByEveryStep : Prop :=
  ∀ s t : State, BlockInv s → step s = .next t → BlockInv t

/-- Every step keeps the counts of rule R147, in the form that also holds in the stopped modes. -/
def Obligations.CountsKeptByEveryStep : Prop :=
  ∀ s t : State, BlockInv s → Counts s → step s = .next t → Counts t

/-- The invariants of rule R33 and the counting law of rule R147: in every run from reset, for every `QDEPTH` and
whatever the environment invokes, the invariants hold; and if the deframer is still in mode `RUN` then of `N` bytes
received `N / 18` dispositions were returned and `N mod 18` bytes are held, each request was emitted as often as its
disposition was returned, and the application frames are those in the queue and those dequeued. -/
def Obligations.RunsFromResetObeyTheCountingLaw : Prop :=
  ∀ (c : Config) (p : List Input) (n : Nat) (t : State),
    core.run n { State.reset with cfg := c, pending := p } = .next t →
    BlockInv t ∧ (Running t →
      t.disps.length = t.streamPos / 18 ∧ t.rxcnt = t.streamPos % 18 ∧
      t.reqs.count .retxReq = t.disps.count .crcFail ∧ t.reqs.count .resendReq = t.disps.count .retx ∧
      t.reqs.count .ackReq = t.disps.count .app ∧ t.disps.count .app = t.q.length + t.deqCount)

/-- The stream position (rule R31 (b)) is the count of bytes given to `RX_BYTE` since `RESET`, dropped ones included:
every instruction but `RESET` advances it by the bytes it gives, and `RESET` starts it from 0. As long as the deframer
runs, `rxcnt` is the position modulo 18; a frame of the table gives its 18 bytes (the model's choice, log entry 10). -/
def Obligations.StreamPositionCountsTheBytesGiven : Prop :=
  (∀ (i : Instr) (s t : State), i ≠ .reset → exec i s = .next t → t.streamPos = s.streamPos + bytesGiven i) ∧
  (∀ s : State, ∃ t, exec .reset s = .next t ∧ t.streamPos = 0) ∧
  ∀ (bs : List Byte) (s t : State), BlockInv s → exec (.rxAppend bs) s = .next t → Running t →
    t.rxcnt = (s.streamPos + bs.length) % 18

/-- The frame as a 144-bit number (rule R60), for every number: byte `k` of the arriving frame is bits `143-8k` to
`136-8k`, and the number decodes to the generic frame with those bytes unless it is one of the twelve constants of rule
R66, which decode to their own rows (the model's choice, log entries 12 and 13). -/
def Obligations.EveryNumberDecodesToItsFrame : Prop :=
  ∀ w : BitVec 144, (∀ r ∈ linkConstants, r.1 = w → decode (.link w) = .ok r.2) ∧
    (w ∉ linkConstants.map Prod.fst → ∃ f : Bytes 18,
      decode (.link w) = .ok (.frame f) ∧ ∀ k, k < 18 → f.1[k]? = some (w.extractLsb' (136 - 8 * k) 8))
end

