-- ==== Sys2Proof/Laws/State.lean ====
section
/-! SUPPORT. One lemma per field of State for each named update of it, so that no proof unfolds a record update. -/

namespace Sys2Proof.Machine

variable (s : State)

@[simp] theorem rxcnt_eq : s.rxcnt = s.rxbuf.length := rfl

@[simp] theorem answer_crc (r : Result) : (answer r s).crc = s.crc := rfl
@[simp] theorem answer_rxbuf (r : Result) : (answer r s).rxbuf = s.rxbuf := rfl
@[simp] theorem answer_q (r : Result) : (answer r s).q = s.q := rfl
@[simp] theorem answer_aborted (r : Result) : (answer r s).aborted = s.aborted := rfl
@[simp] theorem answer_qovf (r : Result) : (answer r s).qovf = s.qovf := rfl
@[simp] theorem answer_cfg (r : Result) : (answer r s).cfg = s.cfg := rfl
@[simp] theorem answer_result (r : Result) : (answer r s).result = r := rfl
@[simp] theorem answer_reqs (r : Result) : (answer r s).reqs = s.reqs := rfl
@[simp] theorem answer_disps (r : Result) : (answer r s).disps = s.disps := rfl
@[simp] theorem answer_streamPos (r : Result) : (answer r s).streamPos = s.streamPos := rfl
@[simp] theorem answer_deqCount (r : Result) : (answer r s).deqCount = s.deqCount := rfl
@[simp] theorem answer_pending (r : Result) : (answer r s).pending = s.pending := rfl

@[simp] theorem emit_crc (r : Req) : (emit r s).crc = s.crc := rfl
@[simp] theorem emit_rxbuf (r : Req) : (emit r s).rxbuf = s.rxbuf := rfl
@[simp] theorem emit_q (r : Req) : (emit r s).q = s.q := rfl
@[simp] theorem emit_aborted (r : Req) : (emit r s).aborted = s.aborted := rfl
@[simp] theorem emit_qovf (r : Req) : (emit r s).qovf = s.qovf := rfl
@[simp] theorem emit_cfg (r : Req) : (emit r s).cfg = s.cfg := rfl
@[simp] theorem emit_result (r : Req) : (emit r s).result = s.result := rfl
@[simp] theorem emit_reqs (r : Req) : (emit r s).reqs = s.reqs ++ [r] := rfl
@[simp] theorem emit_disps (r : Req) : (emit r s).disps = s.disps := rfl
@[simp] theorem emit_streamPos (r : Req) : (emit r s).streamPos = s.streamPos := rfl
@[simp] theorem emit_deqCount (r : Req) : (emit r s).deqCount = s.deqCount := rfl
@[simp] theorem emit_pending (r : Req) : (emit r s).pending = s.pending := rfl

@[simp] theorem push_crc (f : Frame) : (push f s).crc = s.crc := rfl
@[simp] theorem push_rxbuf (f : Frame) : (push f s).rxbuf = s.rxbuf := rfl
@[simp] theorem push_q (f : Frame) : (push f s).q = s.q ++ [f] := rfl
@[simp] theorem push_aborted (f : Frame) : (push f s).aborted = s.aborted := rfl
@[simp] theorem push_qovf (f : Frame) : (push f s).qovf = s.qovf := rfl
@[simp] theorem push_cfg (f : Frame) : (push f s).cfg = s.cfg := rfl
@[simp] theorem push_result (f : Frame) : (push f s).result = s.result := rfl
@[simp] theorem push_reqs (f : Frame) : (push f s).reqs = s.reqs := rfl
@[simp] theorem push_disps (f : Frame) : (push f s).disps = s.disps := rfl
@[simp] theorem push_streamPos (f : Frame) : (push f s).streamPos = s.streamPos := rfl
@[simp] theorem push_deqCount (f : Frame) : (push f s).deqCount = s.deqCount := rfl
@[simp] theorem push_pending (f : Frame) : (push f s).pending = s.pending := rfl

@[simp] theorem setCrc_crc (c : Byte) : (setCrc c s).crc = c := rfl
@[simp] theorem setCrc_rxbuf (c : Byte) : (setCrc c s).rxbuf = s.rxbuf := rfl
@[simp] theorem setCrc_q (c : Byte) : (setCrc c s).q = s.q := rfl
@[simp] theorem setCrc_aborted (c : Byte) : (setCrc c s).aborted = s.aborted := rfl
@[simp] theorem setCrc_qovf (c : Byte) : (setCrc c s).qovf = s.qovf := rfl
@[simp] theorem setCrc_cfg (c : Byte) : (setCrc c s).cfg = s.cfg := rfl
@[simp] theorem setCrc_result (c : Byte) : (setCrc c s).result = s.result := rfl
@[simp] theorem setCrc_reqs (c : Byte) : (setCrc c s).reqs = s.reqs := rfl
@[simp] theorem setCrc_disps (c : Byte) : (setCrc c s).disps = s.disps := rfl
@[simp] theorem setCrc_streamPos (c : Byte) : (setCrc c s).streamPos = s.streamPos := rfl
@[simp] theorem setCrc_deqCount (c : Byte) : (setCrc c s).deqCount = s.deqCount := rfl
@[simp] theorem setCrc_pending (c : Byte) : (setCrc c s).pending = s.pending := rfl

@[simp] theorem setAborted_crc : (setAborted s).crc = s.crc := rfl
@[simp] theorem setAborted_rxbuf : (setAborted s).rxbuf = s.rxbuf := rfl
@[simp] theorem setAborted_q : (setAborted s).q = s.q := rfl
@[simp] theorem setAborted_aborted : (setAborted s).aborted = true := rfl
@[simp] theorem setAborted_qovf : (setAborted s).qovf = s.qovf := rfl
@[simp] theorem setAborted_cfg : (setAborted s).cfg = s.cfg := rfl
@[simp] theorem setAborted_result : (setAborted s).result = s.result := rfl
@[simp] theorem setAborted_reqs : (setAborted s).reqs = s.reqs := rfl
@[simp] theorem setAborted_disps : (setAborted s).disps = s.disps := rfl
@[simp] theorem setAborted_streamPos : (setAborted s).streamPos = s.streamPos := rfl
@[simp] theorem setAborted_deqCount : (setAborted s).deqCount = s.deqCount := rfl
@[simp] theorem setAborted_pending : (setAborted s).pending = s.pending := rfl

@[simp] theorem setQovf_crc : (setQovf s).crc = s.crc := rfl
@[simp] theorem setQovf_rxbuf : (setQovf s).rxbuf = s.rxbuf := rfl
@[simp] theorem setQovf_q : (setQovf s).q = s.q := rfl
@[simp] theorem setQovf_aborted : (setQovf s).aborted = s.aborted := rfl
@[simp] theorem setQovf_qovf : (setQovf s).qovf = true := rfl
@[simp] theorem setQovf_cfg : (setQovf s).cfg = s.cfg := rfl
@[simp] theorem setQovf_result : (setQovf s).result = s.result := rfl
@[simp] theorem setQovf_reqs : (setQovf s).reqs = s.reqs := rfl
@[simp] theorem setQovf_disps : (setQovf s).disps = s.disps := rfl
@[simp] theorem setQovf_streamPos : (setQovf s).streamPos = s.streamPos := rfl
@[simp] theorem setQovf_deqCount : (setQovf s).deqCount = s.deqCount := rfl
@[simp] theorem setQovf_pending : (setQovf s).pending = s.pending := rfl

@[simp] theorem store_crc (b : Byte) : (store b s).crc = s.crc := rfl
@[simp] theorem store_rxbuf (b : Byte) : (store b s).rxbuf = s.rxbuf ++ [b] := rfl
@[simp] theorem store_q (b : Byte) : (store b s).q = s.q := rfl
@[simp] theorem store_aborted (b : Byte) : (store b s).aborted = s.aborted := rfl
@[simp] theorem store_qovf (b : Byte) : (store b s).qovf = s.qovf := rfl
@[simp] theorem store_cfg (b : Byte) : (store b s).cfg = s.cfg := rfl
@[simp] theorem store_result (b : Byte) : (store b s).result = s.result := rfl
@[simp] theorem store_reqs (b : Byte) : (store b s).reqs = s.reqs := rfl
@[simp] theorem store_disps (b : Byte) : (store b s).disps = s.disps := rfl
@[simp] theorem store_streamPos (b : Byte) : (store b s).streamPos = s.streamPos + 1 := rfl
@[simp] theorem store_deqCount (b : Byte) : (store b s).deqCount = s.deqCount := rfl
@[simp] theorem store_pending (b : Byte) : (store b s).pending = s.pending := rfl

@[simp] theorem dropByte_crc : (dropByte s).crc = s.crc := rfl
@[simp] theorem dropByte_rxbuf : (dropByte s).rxbuf = s.rxbuf := rfl
@[simp] theorem dropByte_q : (dropByte s).q = s.q := rfl
@[simp] theorem dropByte_aborted : (dropByte s).aborted = s.aborted := rfl
@[simp] theorem dropByte_qovf : (dropByte s).qovf = s.qovf := rfl
@[simp] theorem dropByte_cfg : (dropByte s).cfg = s.cfg := rfl
@[simp] theorem dropByte_result : (dropByte s).result = s.result := rfl
@[simp] theorem dropByte_reqs : (dropByte s).reqs = s.reqs := rfl
@[simp] theorem dropByte_disps : (dropByte s).disps = s.disps := rfl
@[simp] theorem dropByte_streamPos : (dropByte s).streamPos = s.streamPos + 1 := rfl
@[simp] theorem dropByte_deqCount : (dropByte s).deqCount = s.deqCount := rfl
@[simp] theorem dropByte_pending : (dropByte s).pending = s.pending := rfl

@[simp] theorem consume_crc (d : Disp) : (consume d s).crc = s.crc := rfl
@[simp] theorem consume_rxbuf (d : Disp) : (consume d s).rxbuf = [] := rfl
@[simp] theorem consume_q (d : Disp) : (consume d s).q = s.q := rfl
@[simp] theorem consume_aborted (d : Disp) : (consume d s).aborted = s.aborted := rfl
@[simp] theorem consume_qovf (d : Disp) : (consume d s).qovf = s.qovf := rfl
@[simp] theorem consume_cfg (d : Disp) : (consume d s).cfg = s.cfg := rfl
@[simp] theorem consume_result (d : Disp) : (consume d s).result = s.result := rfl
@[simp] theorem consume_reqs (d : Disp) : (consume d s).reqs = s.reqs := rfl
@[simp] theorem consume_disps (d : Disp) : (consume d s).disps = s.disps ++ [d] := rfl
@[simp] theorem consume_streamPos (d : Disp) : (consume d s).streamPos = s.streamPos + 1 := rfl
@[simp] theorem consume_deqCount (d : Disp) : (consume d s).deqCount = s.deqCount := rfl
@[simp] theorem consume_pending (d : Disp) : (consume d s).pending = s.pending := rfl

end Sys2Proof.Machine
end

