-- ==== Sys2Proof/Laws/Ops.lean ====
section
/-! SUPPORT. One lemma per shared operation that says everything it can do; proofs cite these, not the definitions. -/

namespace Sys2Proof.Machine

/-- The last answer is the one that stands. -/
@[simp] theorem answer_answer (r r' : Result) (s : State) : answer r (answer r' s) = answer r s := rfl

/-- The bytes of a split 18-byte sequence are that sequence. -/
theorem ser_splitBytes (w : Bytes 18) : ser (splitBytes w) = w := by
  obtain ⟨l, hl⟩ := w
  apply Subtype.ext
  apply List.ext_getElem
  · simp [ser, splitBytes, hl]
  · intro i h₁ h₂
    simp only [ser, splitBytes, List.cons_append]
    rcases i with _ | i
    · rfl
    · by_cases hi : i < 16
      · simp [hi, hl]
      · have : i = 16 := by simp only [hl] at h₂; omega
        subst this
        simp [hl]

/-- What `Classify` can answer, with the test that selects it (rule R133). -/
theorem classify_cases (f : Frame) :
    (verifyFrame f = false ∧ classify f = .crcFail) ∨
    (verifyFrame f = true ∧ isCtrl f 0x19 = true ∧ classify f = .retx) ∨
    (verifyFrame f = true ∧ isCtrl f 0x19 = false ∧ isCtrl f 0x15 = true ∧ classify f = .ack) ∨
    (verifyFrame f = true ∧ isCtrl f 0x19 = false ∧ isCtrl f 0x15 = false ∧ isCtrl f 0x59 = true ∧
      classify f = .nack) ∨
    (verifyFrame f = true ∧ isCtrl f 0x19 = false ∧ isCtrl f 0x15 = false ∧ isCtrl f 0x59 = false ∧
      classify f = .app) := by
  unfold classify
  cases verifyFrame f <;> cases isCtrl f 0x19 <;> cases isCtrl f 0x15 <;> cases isCtrl f 0x59 <;> simp

/-- Whether the queue has room, in terms of `QDEPTH` (rule R138). -/
theorem hasRoom_iff (s : State) : hasRoom s = true ↔ ∀ d, s.cfg.qdepth = some d → s.q.length < d := by
  unfold hasRoom
  cases h : s.cfg.qdepth <;> simp

/-- A stopped deframer: neither flag set means running (rule R37). -/
theorem stopped_eq_false_iff (s : State) : s.stopped = false ↔ s.aborted = false ∧ s.qovf = false := by
  unfold State.stopped
  cases s.aborted <;> cases s.qovf <;> simp

/-- Taking an exception: its whole effect (rules R161, R162, R165). -/
theorem raise_eq (e : Exc) (s : State) :
    raise e s = match e with
      | .framingError => { s with reqs := s.reqs ++ [.retxReq] }
      | .peerAbort => { s with aborted := true, reqs := s.reqs ++ [.peerAbort] }
      | .queueOverflow => { s with qovf := true, reqs := s.reqs ++ [.qovfFault] } := by
  cases e <;> rfl

/-- A disposal: its whole effect (rules R134 to R138, R165). -/
theorem dispose_eq (d : Disp) (f : Frame) (s : State) :
    dispose d f s = match d with
      | .crcFail => { s with reqs := s.reqs ++ [.retxReq] }
      | .retx => { s with reqs := s.reqs ++ [.resendReq] }
      | .ack => s
      | .nack => { s with aborted := true, reqs := s.reqs ++ [.peerAbort] }
      | .app =>
        if hasRoom s then { s with q := s.q ++ [f], reqs := s.reqs ++ [.ackReq] }
        else { s with qovf := true, reqs := s.reqs ++ [.qovfFault] } := by
  cases d <;> simp only [dispose, raise_eq] <;> rfl

/-- `RX_BYTE` does one of three things (rules R131, R132, R139). -/
theorem rxStep_cases (b : Byte) (s : State) :
    (s.stopped = true ∧ rxStep b s = (dropByte s, .dropped)) ∨
    (s.stopped = false ∧ s.rxbuf.length < 17 ∧ rxStep b s = (store b s, .none)) ∨
    (s.stopped = false ∧ ∃ h : ¬ s.rxbuf.length < 17, ∃ f, f = decodeFrame (candidate s.rxbuf b h) ∧
      rxStep b s = (dispose (classify f) f (consume (classify f) s), .disp (classify f))) := by
  unfold rxStep
  cases h₁ : s.stopped
  · by_cases h₂ : s.rxbuf.length < 17
    · exact .inr (.inl ⟨rfl, h₂, by simp [h₂]⟩)
    · exact .inr (.inr ⟨rfl, h₂, _, rfl, by simp [h₂]⟩)
  · exact .inl ⟨rfl, by simp⟩

/-- With exactly 17 bytes held the candidate is those and the incoming one (rule R132). -/
theorem candidate_eq {buf : List Byte} {b : Byte} {w : Bytes 18} (h : ¬ buf.length < 17) (hw : buf ++ [b] = w.1) :
    candidate buf b h = w := by
  have hl : buf.length = 17 := by have := congrArg List.length hw; simp [w.2] at this; omega
  exact Subtype.ext (by rw [← hw]; simp [candidate, List.take_of_length_le, hl])

/-- A running deframer with 17 bytes held completes a candidate (rule R132). -/
theorem rxStep_complete {b : Byte} {s : State} {w : Bytes 18} (hs : s.stopped = false) (hw : s.rxbuf ++ [b] = w.1) :
    rxStep b s = (dispose (classify (decodeFrame w)) (decodeFrame w) (consume (classify (decodeFrame w)) s),
      .disp (classify (decodeFrame w))) := by
  have hl : s.rxbuf.length = 17 := by have := congrArg List.length hw; simp [w.2] at this; omega
  have h : ¬ s.rxbuf.length < 17 := by omega
  simp only [rxStep, hs, Bool.false_eq_true, if_false, dif_neg h, candidate_eq h hw]

/-- Every byte given to `RX_BYTE` advances the stream position by one, whatever the mode (rule R31 (b)). -/
theorem rxStep_streamPos (b : Byte) (s : State) : (rxStep b s).1.streamPos = s.streamPos + 1 := by
  obtain ⟨-, h⟩ | ⟨-, -, h⟩ | ⟨-, _, f, -, h⟩ := rxStep_cases b s <;> rw [h]
  · rfl
  · rfl
  rw [dispose_eq]
  split <;> try split
  all_goals simp

/-- A stopped deframer drops the byte (rule R139). -/
theorem rxStep_stopped {b : Byte} {s : State} (h : s.stopped = true) : rxStep b s = (dropByte s, .dropped) := by
  simp [rxStep, h]

/-- The empty chunk does nothing (rule R140). -/
@[simp] theorem receive_nil (s : State) : receive [] s = (s, []) := rfl

/-- A chunk is its first byte, then the rest (rule R140). -/
theorem receive_cons (b : Byte) (bs : List Byte) (s : State) :
    receive (b :: bs) s =
      ((receive bs (rxStep b s).1).1, (rxStep b s).2.dispositions ++ (receive bs (rxStep b s).1).2) := rfl

/-- A chunk advances the stream position by its length (rule R31 (b)). -/
theorem receive_streamPos (bs : List Byte) (s : State) : (receive bs s).1.streamPos = s.streamPos + bs.length := by
  induction bs generalizing s with
  | nil => rfl
  | cons b bs ih => rw [receive_cons, ih, rxStep_streamPos, List.length_cons]; omega

/-- `Pad` and the length of its result. -/
@[simp] theorem pad_val (p : List Byte) (h : p.length ≤ 16) :
    (pad p h).1 = p ++ List.replicate (16 - p.length) 0xFF := rfl

/-- `receive` neither reads nor writes the parameter and the environment's invocations, nor `crc`. -/
theorem rxStep_frame (b : Byte) (s : State) :
    (rxStep b s).1.crc = s.crc ∧ (rxStep b s).1.cfg = s.cfg ∧ (rxStep b s).1.pending = s.pending ∧
      (rxStep b s).1.deqCount = s.deqCount ∧ (rxStep b s).1.result = s.result := by
  obtain ⟨-, h⟩ | ⟨-, -, h⟩ | ⟨-, _, f, -, h⟩ := rxStep_cases b s <;> rw [h]
  · simp
  · simp
  rw [dispose_eq]
  split <;> try split
  all_goals simp

end Sys2Proof.Machine
end

