-- ==== Sys2Proof/Laws/PerInstr.lean ====
section
/-! SUPPORT. Facts about every instruction as syntax, one lemma per constructor: `EncodedFits`, the encoded word fits
its width, so that no operand field runs into another or past the select code (rule R71). -/

namespace Sys2Proof.Laws

/-- The bytes of a sequence make a number of that many bytes. -/
theorem numberOf_lt (bs : List Byte) : numberOf bs < 256 ^ bs.length := by
  induction bs with
  | nil => simp [numberOf]
  | cons b bs ih =>
    have hb : b.toNat < 256 := b.isLt
    have : b.toNat * 256 ^ bs.length + 256 ^ bs.length ≤ 256 ^ (bs.length + 1) := by
      rw [pow_succ, ← Nat.succ_mul, Nat.mul_comm (256 ^ _)]
      exact Nat.mul_le_mul_right _ hb
    simp only [numberOf, List.length_cons]
    omega

/-- Joined 12-bit words make a number of that many words. -/
theorem packOps_lt (code : Nat) (hc : code < 16) (bs : List Byte) : packOps code bs < 4096 ^ bs.length := by
  induction bs with
  | nil => simp [packOps]
  | cons b bs ih =>
    have hb : b.toNat < 256 := b.isLt
    have : (code * 256 + b.toNat) * 4096 ^ bs.length + 4096 ^ bs.length ≤ 4096 ^ (bs.length + 1) := by
      rw [pow_succ, ← Nat.succ_mul, Nat.mul_comm (4096 ^ _)]
      exact Nat.mul_le_mul_right _ (by omega)
    simp only [packOps, List.length_cons]
    omega

/-- A number of 16 bytes is below 2^128. -/
theorem numberOf_lt_16 (p : Bytes 16) : numberOf p.1 < 2 ^ 128 := by
  have := numberOf_lt p.1
  rwa [p.2, show (256 : Nat) ^ 16 = 2 ^ 128 by norm_num] at this

/-- A number of 18 bytes is below 2^144. -/
theorem numberOf_lt_18 (w : Bytes 18) : numberOf w.1 < 2 ^ 144 := by
  have := numberOf_lt w.1
  rwa [w.2, show (256 : Nat) ^ 18 = 2 ^ 144 by norm_num] at this

/-- A word of 12-bit words has the width the encoder states. -/
theorem pow_4096 (k : Nat) : 4096 ^ k = 2 ^ (12 * k) := by
  rw [show (4096 : Nat) = 2 ^ 12 by norm_num, ← pow_mul]

/-- The value fits the width of its input form. -/
def fits : Input → Prop
  | .op width bits => bits < 2 ^ width
  | .link w => w.toNat < 2 ^ 144

namespace EncodedFits

/-- The encoded word of the instruction fits its width. -/
def Statement (i : Instr) : Prop := fits (encode i)

theorem reset : Statement .reset := by show _ < 2 ^ 4; decide

theorem crcClr : Statement .crcClr := by show _ < 2 ^ 4; decide

theorem crcUpd (b : Byte) : Statement (.crcUpd b) := by
  have : b.toNat < 256 := b.isLt
  show 0x200 + b.toNat < 2 ^ 12
  omega

theorem encode (l : Byte) (n : BitVec 5) (p : Bytes 16) : Statement (.encode l n p) := by
  have hl : l.toNat < 256 := l.isLt
  have hn : n.toNat < 32 := n.isLt
  have hp := numberOf_lt_16 p
  show 0x3 * 2 ^ 141 + l.toNat * 2 ^ 133 + n.toNat * 2 ^ 128 + numberOf p.1 < 2 ^ 145
  omega

theorem decode (w : Bytes 18) : Statement (.decode w) := by
  have hw := numberOf_lt_18 w
  show 0x4 * 2 ^ 144 + numberOf w.1 < 2 ^ 148
  omega

theorem verify (f : Frame) : Statement (.verify f) := by
  have hw := numberOf_lt_18 (ser f)
  show 0x5 * 2 ^ 144 + numberOf (ser f).1 < 2 ^ 148
  omega

theorem rxByte (b : Byte) : Statement (.rxByte b) := by
  have : b.toNat < 256 := b.isLt
  show 0x600 + b.toNat < 2 ^ 12
  omega

theorem deq : Statement .deq := by show _ < 2 ^ 4; decide

theorem reserved8 : Statement .reserved8 := by show _ < 2 ^ 4; decide

theorem reserved9 : Statement .reserved9 := by show _ < 2 ^ 4; decide

theorem reservedA : Statement .reservedA := by show _ < 2 ^ 4; decide

theorem reservedB : Statement .reservedB := by show _ < 2 ^ 4; decide

theorem reservedC : Statement .reservedC := by show _ < 2 ^ 4; decide

theorem reservedD : Statement .reservedD := by show _ < 2 ^ 4; decide

theorem reservedE : Statement .reservedE := by show _ < 2 ^ 4; decide

theorem reservedF : Statement .reservedF := by show _ < 2 ^ 4; decide

theorem ctrl (o : Byte) : Statement (.ctrl o) := by
  have : o.toNat < 256 := o.isLt
  show 0x3 * 2 ^ 141 + 0x01 * 2 ^ 133 + 1 * 2 ^ 128 + o.toNat * 2 ^ 120 < 2 ^ 145
  omega

theorem crc8 (bs : List Byte) : Statement (.crc8 bs) := by
  have h := packOps_lt 2 (by decide) bs
  show 0x1 * 4096 ^ bs.length + packOps 2 bs < 2 ^ (4 + 12 * bs.length)
  rw [pow_add, ← pow_4096]
  omega

theorem rxAppend (bs : List Byte) : Statement (.rxAppend bs) := by
  have h := packOps_lt 6 (by decide) bs
  show packOps 6 bs < 2 ^ (12 * bs.length)
  rwa [← pow_4096]

theorem frame (w : Bytes 18) : Statement (.frame w) := BitVec.isLt _

theorem ack : Statement .ack := BitVec.isLt _

theorem retx : Statement .retx := BitVec.isLt _

theorem syncObserved : Statement .syncObserved := BitVec.isLt _

theorem fwUpdateReq : Statement .fwUpdateReq := BitVec.isLt _

theorem fwUpdateRes : Statement .fwUpdateRes := BitVec.isLt _

theorem deviceIdReq : Statement .deviceIdReq := BitVec.isLt _

theorem deviceIdRes : Statement .deviceIdRes := BitVec.isLt _

theorem fwLengthReq : Statement .fwLengthReq := BitVec.isLt _

theorem fwLengthRes : Statement .fwLengthRes := BitVec.isLt _

theorem readyForData : Statement .readyForData := BitVec.isLt _

theorem updateSuccessful : Statement .updateSuccessful := BitVec.isLt _

theorem nack : Statement .nack := BitVec.isLt _

end EncodedFits

end Sys2Proof.Laws
end

