-- ==== Sys2Proof/Tests/Slice0.lean ====
section
/-! SUPPORT. The model's own tests, every expected value taken from the spec (mostly 95_test_vectors.md), and one
witness per statement that has hypotheses: concrete values that meet them together. -/

namespace Sys2Proof.Tests

-- One theorem at a time: many at once need more thread stacks than the build's memory limit has room for.
set_option Elab.async false

open Sys2Proof.Machine Sys2Proof.Safety

/-- `FF×k`. -/
def ff (k : Nat) : List Byte := List.replicate k 0xFF

/-- FW_UPDATE_RES, DEVICE_ID_REQ and FW_LENGTH_REQ as frames (95_test_vectors.md, program P2). -/
def f1 : Frame := ⟨0x01, ⟨0x37 :: ff 15, rfl⟩, 0x63⟩
def f2 : Frame := ⟨0x01, ⟨0x3C :: ff 15, rfl⟩, 0x75⟩
def f3 : Frame := ⟨0x01, ⟨0x42 :: ff 15, rfl⟩, 0x89⟩

/-- Their 18 bytes. -/
def w1 : List Byte := [0x01, 0x37] ++ ff 15 ++ [0x63]
def w2 : List Byte := [0x01, 0x3C] ++ ff 15 ++ [0x75]
def w3 : List Byte := [0x01, 0x42] ++ ff 15 ++ [0x89]

/-- DEVICE_ID_REQ with bit 2 of offset 5 flipped (E3). -/
def bad : Bytes 18 := ⟨[0x01, 0x3C, 0xFF, 0xFF, 0xFF, 0xFB] ++ ff 11 ++ [0x75], rfl⟩

/-- The reset state with bytes already collected. -/
def held (bs : List Byte) : State := { State.reset with rxbuf := bs, streamPos := bs.length }

/-- The reset state with a finite queue. -/
def depth (d : Nat) (fs : List Frame) (s : State) : State := { s with cfg := ⟨some d⟩, q := fs }

/-- The two stopped modes. -/
def stoppedA : State := { State.reset with aborted := true, q := [f1], streamPos := 18, disps := [.nack] }
def stoppedF : State := { State.reset with qovf := true, q := [f1], cfg := ⟨some 1⟩, streamPos := 36 }

/-- The next state of an outcome. -/
def next? : Host.Outcome State Fault Refusal → Option State
  | .next t => some t
  | .fault _ => none
  | .refused _ => none

/-- The refusal of an outcome. -/
def refusal? : Host.Outcome State Fault Refusal → Option Refusal
  | .next _ => none
  | .fault _ => none
  | .refused r => some r

/-- The result returned. -/
def result? (o : Host.Outcome State Fault Refusal) : Option Result := (next? o).map (·.result)

/-- What a step shows: the result, the requests emitted, the queue, the bytes held and the flags. -/
structure View where
  result : Result
  reqs : List Req
  q : List Frame
  rxbuf : List Byte
  aborted : Bool
  qovf : Bool
  deriving DecidableEq, Repr

/-- The view of an outcome's next state. -/
def view (o : Host.Outcome State Fault Refusal) : Option View :=
  (next? o).map fun t => ⟨t.result, t.reqs, t.q, t.rxbuf, t.aborted, t.qovf⟩

/-! ### Well-formedness: an ill-formed term for the one check -/

/-- `n` is 0 to 16 (rule R71). -/
theorem test_wellFormed_refuses_17_bytes : Instr.wellFormed (.encode 0x01 17 ⟨ff 16, rfl⟩) = false := by decide
theorem test_wellFormed_takes_16_bytes : Instr.wellFormed (.encode 0x01 16 ⟨ff 16, rfl⟩) = true := by decide

/-! ### Decoding: one word for every constructor, written out from rules R71, R83 and R66 -/

/-- 4-bit words: the select code alone. -/
theorem test_decode_select_codes :
    decode (.op 4 0b0000) = .ok .reset ∧ decode (.op 4 0b0001) = .ok .crcClr ∧ decode (.op 4 0b0111) = .ok .deq ∧
    decode (.op 4 0b1000) = .ok .reserved8 ∧ decode (.op 4 0b1001) = .ok .reserved9 ∧
    decode (.op 4 0b1010) = .ok .reservedA ∧ decode (.op 4 0b1011) = .ok .reservedB ∧
    decode (.op 4 0b1100) = .ok .reservedC ∧ decode (.op 4 0b1101) = .ok .reservedD ∧
    decode (.op 4 0b1110) = .ok .reservedE ∧ decode (.op 4 0b1111) = .ok .reservedF := by decide +kernel

/-- 12-bit words: "`CRC_UPD b` is the 12-bit pattern `0010bbbbbbbb`" (rule R71); programs P1 and P2. -/
theorem test_decode_byte_words :
    decode (.op 12 0b001000110001) = .ok (.crcUpd 0x31) ∧ decode (.op 12 0b011001100011) = .ok (.rxByte 0x63) := by
  decide +kernel

/-- Program P4, step 1: `3 | 00000111 | 01000 | C0 ... C7 00 ... 00`. -/
theorem test_decode_encode_word :
    decode (.op 145
      (0b0011_00000111_01000 * 2 ^ 128 + 0xC0C1C2C3C4C5C6C70000000000000000)) = .ok (.encode 0x07 8
        ⟨[0xC0, 0xC1, 0xC2, 0xC3, 0xC4, 0xC5, 0xC6, 0xC7, 0, 0, 0, 0, 0, 0, 0, 0], rfl⟩) := by decide +kernel

/-- Program P4, steps 4 and 5: `5` or `4`, then the 36 digits of the frame. -/
theorem test_decode_frame_operands :
    decode (.op 148 0x407C0C1C2C3C4C5C6C7FFFFFFFFFFFFFFFFFB) = .ok (.decode
      ⟨[0x07, 0xC0, 0xC1, 0xC2, 0xC3, 0xC4, 0xC5, 0xC6, 0xC7, 0xFF, 0xFF, 0xFF, 0xFF, 0xFF, 0xFF, 0xFF, 0xFF, 0xFB],
        rfl⟩) ∧
    decode (.op 148 0x5000102030405060708090A0B0C0D0E0F1011) = .ok (.verify
      ⟨0x00, ⟨[0x01, 0x02, 0x03, 0x04, 0x05, 0x06, 0x07, 0x08, 0x09, 0x0A, 0x0B, 0x0C, 0x0D, 0x0E, 0x0F, 0x10], rfl⟩,
        0x11⟩) := by decide +kernel

/-- Pseudo-operations: the joined words of their expansions (rule R83), `CTRL 0x19` as `ENCODE 1, [0x19]`. -/
theorem test_decode_pseudo_operations :
    decode (.op 145 (0b0011_00000001_00001 * 2 ^ 128 + 0x19 * 2 ^ 120)) = .ok (.ctrl 0x19) ∧
    decode (.op 28 0x1_201_215) = .ok (.crc8 [0x01, 0x15]) ∧
    decode (.op 36 0x601_637_6FF) = .ok (.rxAppend [0x01, 0x37, 0xFF]) ∧
    decode (.op 0 0) = .ok (.rxAppend []) := by decide +kernel

/-- Frames: the twelve constants of rule R66, and V-D3's frame, which is none of them. -/
theorem test_decode_control_frames :
    decode (.link 0x0115FFFFFFFFFFFFFFFFFFFFFFFFFFFFFF27) = .ok .ack ∧
    decode (.link 0x0119FFFFFFFFFFFFFFFFFFFFFFFFFFFFFF3F) = .ok .retx ∧
    decode (.link 0x0120FFFFFFFFFFFFFFFFFFFFFFFFFFFFFF4D) = .ok .syncObserved ∧
    decode (.link 0x0131FFFFFFFFFFFFFFFFFFFFFFFFFFFFFF6F) = .ok .fwUpdateReq ∧
    decode (.link 0x0137FFFFFFFFFFFFFFFFFFFFFFFFFFFFFF63) = .ok .fwUpdateRes ∧
    decode (.link 0x013CFFFFFFFFFFFFFFFFFFFFFFFFFFFFFF75) = .ok .deviceIdReq ∧
    decode (.link 0x013FFFFFFFFFFFFFFFFFFFFFFFFFFFFFFF73) = .ok .deviceIdRes ∧
    decode (.link 0x0142FFFFFFFFFFFFFFFFFFFFFFFFFFFFFF89) = .ok .fwLengthReq ∧
    decode (.link 0x0145FFFFFFFFFFFFFFFFFFFFFFFFFFFFFF87) = .ok .fwLengthRes ∧
    decode (.link 0x0148FFFFFFFFFFFFFFFFFFFFFFFFFFFFFF9D) = .ok .readyForData ∧
    decode (.link 0x0154FFFFFFFFFFFFFFFFFFFFFFFFFFFFFFA5) = .ok .updateSuccessful ∧
    decode (.link 0x0159FFFFFFFFFFFFFFFFFFFFFFFFFFFFFFBF) = .ok .nack ∧
    decode (.link 0x0177FFFFFFFFFFFFFFFFFFFFFFFFFFFFFFE3) = .ok (.frame ⟨[0x01, 0x77] ++ ff 15 ++ [0xE3], rfl⟩) := by
  decide +kernel

/-- What is no operation word is rejected by name. -/
theorem test_decode_rejections :
    decode (.op 4 0b10000) = .error .bitsBeyondWidth ∧ decode (.op 3 0) = .error .noSelectCode ∧
    decode (.op 8 0x21) = .error .wrongWidth ∧ decode (.op 24 0x601_201) = .error .notAnExpansion := by
  decide +kernel

/-- Words of the opcode table: 16-bit `RX_BYTE`, 152-bit `VERIFY`, 152-bit `ENCODE`, 144-bit `NACK`. -/
theorem test_decode_table_words :
    decodeTableWord 16 0x6AB = some (.rxByte 0xAB) ∧
    decodeTableWord 8 0x7 = some .deq ∧
    decodeTableWord 152 0x5000000000000000000000000000000000000 = some (.verify
      ⟨0, ⟨List.replicate 16 0, rfl⟩, 0⟩) ∧
    decodeTableWord 152 0x600000000000000000000000000000000000 = some (.encode 0 0 ⟨List.replicate 16 0, rfl⟩) ∧
    decodeTableWord 144 0x0159FFFFFFFFFFFFFFFFFFFFFFFFFFFFFFBF = some .nack := by decide +kernel

/-! ### CRC8 generator (vectors V-K) -/

/-- V-K13. -/
theorem test_crcUpd : (next? (exec (.crcUpd 0x15) { State.reset with crc := 0x07 })).map (·.crc) = some 0x7E := by
  decide +kernel

/-- V-K14; "does not affect the deframer" (rule R94). -/
theorem test_crcClr : next? (exec .crcClr { held [0x01] with crc := 0x7E }) = some (held [0x01]) := by decide +kernel

/-- V-K7. -/
theorem test_crc8 :
    (next? (exec (.crc8 [0x31, 0x32, 0x33, 0x34, 0x35, 0x36, 0x37, 0x38, 0x39]) { State.reset with crc := 0x55 })).map
      (fun t => (t.result, t.status.crc)) = some (.crcValue 0xF4, 0xF4) := by decide +kernel

/-- V-K11 and V-K12. -/
theorem test_crc8_residue : crc8 ([0x01, 0x15] ++ ff 15 ++ [0x27]) = 0x00 ∧ crc8 (ff 17) = 0x1B := by decide +kernel

/-! ### Frame codec (vectors V-C) -/

/-- V-C2, bytes past `n` ignored; V-C5, no padding. -/
theorem test_encode :
    result? (exec (.encode 0x00 1 ⟨0xAA :: List.replicate 15 0x33, rfl⟩) State.reset) =
      some (.bytes ⟨[0x00, 0xAA] ++ ff 15 ++ [0x50], rfl⟩) ∧
    result? (exec (.encode 0x0F 16 ⟨List.replicate 16 0, rfl⟩) State.reset) =
      some (.bytes ⟨0x0F :: List.replicate 16 0 ++ [0x5A], rfl⟩) := by decide +kernel

/-- V-C10. -/
theorem test_encode_refuses_17 :
    refusal? (exec (.encode 0x00 17 ⟨List.replicate 16 0, rfl⟩) State.reset) = some (.encodeTooLong 17) := by
  decide +kernel

/-- V-C12. -/
theorem test_decode :
    result? (exec (.decode
      ⟨[0x00, 0x01, 0x02, 0x03, 0x04, 0x05, 0x06, 0x07, 0x08, 0x09, 0x0A, 0x0B, 0x0C, 0x0D, 0x0E, 0x0F, 0x10, 0x11],
        rfl⟩) State.reset) =
      some (.frame ⟨0x00,
        ⟨[0x01, 0x02, 0x03, 0x04, 0x05, 0x06, 0x07, 0x08, 0x09, 0x0A, 0x0B, 0x0C, 0x0D, 0x0E, 0x0F, 0x10], rfl⟩,
        0x11⟩) := by decide +kernel

/-- V-C6 and V-C7; E2, its first row. -/
theorem test_verify :
    result? (exec (.verify ⟨0, ⟨List.replicate 16 0, rfl⟩, 0⟩) State.reset) = some (.verdict true) ∧
    result? (exec (.verify ⟨0xFF, ⟨ff 16, rfl⟩, 0xFF⟩) State.reset) = some (.verdict false) ∧
    result? (exec (.verify ⟨0x01, ⟨0x15 :: ff 15, rfl⟩, 0x26⟩) State.reset) = some (.verdict false) := by decide +kernel

/-- V-C9: a two-bit error that passes. -/
theorem test_verify_passes_flips_127_apart :
    result? (exec (.verify ⟨0x81, ⟨0x15 :: ff 13 ++ [0xFE, 0xFF], rfl⟩, 0x27⟩) State.reset) = some (.verdict true) := by
  decide +kernel

/-- V-C13 to V-C17. -/
theorem test_isCtrl :
    isCtrl ⟨0x01, ⟨0x15 :: ff 15, rfl⟩, 0x27⟩ 0x15 = true ∧ isCtrl ⟨0x01, ⟨0x15 :: ff 15, rfl⟩, 0x00⟩ 0x15 = true ∧
    isCtrl ⟨0x02, ⟨0x15 :: ff 15, rfl⟩, 0x27⟩ 0x15 = false ∧
    isCtrl ⟨0x01, ⟨0x15 :: ff 14 ++ [0xFE], rfl⟩, 0x27⟩ 0x15 = false ∧
    isCtrl ⟨0x01, ⟨0x15 :: ff 15, rfl⟩, 0x27⟩ 0x19 = false := by decide +kernel

/-- Rule R119's example. -/
theorem test_ctrl :
    result? (exec (.ctrl 0x19) State.reset) = some (.bytes ⟨[0x01, 0x19] ++ ff 15 ++ [0x3F], rfl⟩) := by decide +kernel

/-! ### Deframer (vectors V-D) -/

/-- V-D1 and V-D2. -/
theorem test_rxByte :
    view (exec (.rxByte 0xFF) (held ([0x01, 0x15] ++ ff 14))) =
      some ⟨.none, [], [], [0x01, 0x15] ++ ff 15, false, false⟩ ∧
    view (exec (.rxByte 0x27) (held ([0x01, 0x15] ++ ff 15))) = some ⟨.disp .ack, [], [], [], false, false⟩ := by
  decide +kernel

/-- Program P3, step 4: dropped, no state of the block changes; the byte is counted (rule R31 (b)). -/
theorem test_rxByte_dropped :
    next? (exec (.rxByte 0x01) stoppedA) = some { stoppedA with streamPos := 19, result := .dropped } ∧
    next? (exec (.rxByte 0x01) stoppedF) = some { stoppedF with streamPos := 37, result := .dropped } := by decide +kernel

/-- V-D10: what follows a NACK is dropped. -/
theorem test_rxAppend_nack_in_midstream :
    view (exec (.rxAppend ([0x01, 0x15] ++ ff 15 ++ [0x27, 0x01, 0x59] ++ ff 15 ++ [0xBF, 0x01, 0x48] ++ ff 15 ++
      [0x9D])) State.reset) = some ⟨.disps [.ack, .nack], [.peerAbort], [], [], true, false⟩ := by decide +kernel

/-- V-D12: one stray byte in front; alignment is never regained. -/
theorem test_rxAppend_misaligned :
    view (exec (.rxAppend (0x00 :: w1 ++ w2)) State.reset) =
      some ⟨.disps [.crcFail, .crcFail], [.retxReq, .retxReq], [], [0x75], false, false⟩ := by decide +kernel

/-- V-D16: the queue overflows; the third frame is dropped. -/
theorem test_rxAppend_overflow :
    view (exec (.rxAppend (w2 ++ w3)) (depth 1 [f1] State.reset)) =
      some ⟨.disps [.app], [.qovfFault], [f1], [], false, true⟩ := by decide +kernel

/-- V-D14, and program P3 step 5 (`DEQ` in mode `ABORTED`). -/
theorem test_deq :
    next? (exec .deq State.reset) = some { State.reset with result := .empty } ∧
    next? (exec .deq stoppedA) = some { stoppedA with q := [], result := .frame f1, deqCount := 1 } := by decide +kernel

/-- V-D6: a RETX pattern with a bad crc is no RETX. -/
theorem test_frame_bad_crc :
    view (exec (.frame ⟨[0x01, 0x19] ++ ff 15 ++ [0xC0], rfl⟩) State.reset) =
      some ⟨.disps [.crcFail], [.retxReq], [], [], false, false⟩ := by decide +kernel

/-- V-D4 and V-D5: the RETX opcode under another length or padding is application data. -/
theorem test_frame_is_no_retx :
    result? (exec (.frame ⟨[0x02, 0x19] ++ ff 15 ++ [0x2D], rfl⟩) State.reset) = some (.disps [.app]) ∧
    result? (exec (.frame ⟨[0x01, 0x19, 0x00] ++ ff 14 ++ [0xAF], rfl⟩) State.reset) = some (.disps [.app]) := by
  decide +kernel

/-- Rule R66, its last column, for the rows that are not `APP`. -/
theorem test_control_frames_acted_on :
    view (exec .ack State.reset) = some ⟨.disps [.ack], [], [], [], false, false⟩ ∧
    view (exec .retx State.reset) = some ⟨.disps [.retx], [.resendReq], [], [], false, false⟩ ∧
    view (exec .nack State.reset) = some ⟨.disps [.nack], [.peerAbort], [], [], true, false⟩ := by decide +kernel

/-- Rule R66, its last column, for the nine rows that are `APP`: queued and acknowledged. -/
theorem test_control_frames_queued :
    ∀ r ∈ [(Instr.syncObserved, 0x20#8, 0x4D#8), (.fwUpdateReq, 0x31, 0x6F), (.fwUpdateRes, 0x37, 0x63),
      (.deviceIdReq, 0x3C, 0x75), (.deviceIdRes, 0x3F, 0x73), (.fwLengthReq, 0x42, 0x89), (.fwLengthRes, 0x45, 0x87),
      (.readyForData, 0x48, 0x9D), (.updateSuccessful, 0x54, 0xA5)],
      view (exec r.1 State.reset) =
        some ⟨.disps [.app], [.ackReq], [⟨0x01, ⟨r.2.1 :: ff 15, rfl⟩, r.2.2⟩], [], false, false⟩ := by decide +kernel

/-! ### Reset and the step -/

/-- V-R1 and V-R2. -/
theorem test_reset :
    next? (exec .reset { held ([0x01, 0x59] ++ ff 7) with crc := 0x7E, q := [f1] }) = some State.reset ∧
    next? (exec .reset stoppedA) = some State.reset := by decide +kernel

/-- Rule R73: "the block performs nothing". -/
theorem test_reserved :
    [Instr.reserved8, .reserved9, .reservedA, .reservedB, .reservedC, .reservedD, .reservedE, .reservedF].map
      (fun i => refusal? (exec i State.reset)) =
    [0x8, 0x9, 0xA, 0xB, 0xC, 0xD, 0xE, 0xF].map fun c => some (.reservedSelect c) := by decide +kernel

/-- A placed word is what the next step runs; then nothing is pending and the step does nothing. -/
theorem test_step :
    (next? (core.run 2 (State.reset.withFetchWord 16 0x2FF))).map (fun t => (t.crc, t.pending)) = some (0xF3, []) := by
  decide +kernel

/-! ### Witnesses: each statement's hypotheses, met together -/

/-- A state with a queued frame, one byte held and a byte to come. -/
def busy : State :=
  { State.reset with
    rxbuf := [0x01], q := [f1], reqs := [.ackReq], disps := [.app], streamPos := 19, pending := [.op 12 0x637] }

/-- `busy` has the invariants. -/
theorem busy_inv : BlockInv busy where
  collected := by decide
  position := by decide
  queued := by decide +kernel
  depth := by decide
  exclusive := by decide
  stoppedEmpty := by decide
  unbounded := by decide

/-- `busy` has the counts. -/
theorem busy_counts : Counts busy := by constructor <;> decide

theorem witness_DecodedInstructionsReadBack :
    (decode (.op 145 (3 * 2 ^ 141 + 5)) = .ok (.encode 0 0 (fixedBytes 16 5)) ∧
      ∀ o, Instr.encode 0 0 (fixedBytes 16 5) ≠ .ctrl o) ∧
    decode (.op 145 (0b0011_00000001_00001 * 2 ^ 128 + 0x19 * 2 ^ 120 + 5)) = .ok (.ctrl 0x19) :=
  ⟨⟨by decide +kernel, by simp⟩, by decide +kernel⟩

theorem witness_ReservedCodesAreRefused :
    isReserved .reserved8 = true ∧ isReserved .reservedF = true ∧ 8 ≤ (0x8 : BitVec 4).toNat ∧
    8 ≤ (0xF : BitVec 4).toNat ∧ 16 < (17 : BitVec 5).toNat ∧ 16 < (31 : BitVec 5).toNat := by decide

theorem witness_StepRunsTheDecodedInstruction :
    (busy.pending = [.op 12 0x637] ∧ decode (.op 12 0x637) = .ok (.rxByte 0x37)) ∧ State.reset.pending = [] ∧
    (({ State.reset with pending := [.op 8 0x21] } : State).pending = [.op 8 0x21] ∧
      decode (.op 8 0x21) = .error .wrongWidth) := by decide +kernel

theorem witness_PlacedWordRunsNext : decodeTableWord 16 0x2FF = some (.crcUpd 0xFF) := by decide +kernel

theorem witness_EveryValueHasADisposition :
    (crc8 (0x01 :: 0x59 :: ff 15) ≠ 0x00) ∧
    (crc8 (0x01 :: 0x77 :: ff 15) = 0xE3 ∧ (0x77 : Byte) ∉ opcodes) ∧
    (crc8 (0x02 :: 0x19 :: ff 15) = 0x2D ∧ (0x02 : Byte) ≠ 1) ∧
    (crc8 (0x01 :: 0x19 :: 0x00 :: ff 14) = 0xAF ∧ (0x19 :: 0x00 :: ff 14).drop 1 ≠ ff 15) ∧
    (ser ⟨0, ⟨List.replicate 16 0, rfl⟩, 0⟩).1 = List.replicate 18 0x00 ∧
    (ser ⟨0xFF, ⟨ff 16, rfl⟩, 0xFF⟩).1 = List.replicate 18 0xFF := by decide +kernel

theorem witness_OpcodeMap : crc8 ((ser f1).1.take 17) = f1.crc := by decide +kernel

theorem witness_TwelveControlFrames :
    (.nack, 0x59, 0xBF, .nack) ∈ controlTable ∧ (.ack, 0x15, 0x27, .ack) ∈ controlTable ∧
    AtBoundary State.reset ∧ hasRoom State.reset = true ∧ hasRoom (depth 1 [] State.reset) = true := by decide

theorem witness_CrcReadsBackTheBytesGiven :
    (∀ i ∈ [Instr.crcUpd 0x01, .deq, .crcUpd 0x15], ¬ (i = .crcClr ∨ i = .reset ∨ ∃ bs, i = .crc8 bs)) ∧
    ∃ t, execAll [.crcClr, .crcUpd 0x01, .deq, .crcUpd 0x15] busy = .next t :=
  ⟨by simp, _, rfl⟩

theorem witness_CrcLaws : (ff 2).length = [0x00#8, 0x01].length ∧ 0 < 1 ∧ 1 < 127 ∧ 126 < 127 := by decide

theorem witness_CrcRegisterIsPrivate : writesCrc (.rxAppend w1) = false ∧ writesCrc .deq = false := by decide

theorem witness_EncodeBuildsTheFrame :
    (0 : BitVec 5).toNat ≤ 16 ∧ (16 : BitVec 5).toNat ≤ 16 ∧ 16 < (17 : BitVec 5).toNat := by decide

theorem witness_DecodeSplitsWithoutValidation : 0 < 16 ∧ 15 < 16 := by decide

theorem witness_CtrlBuildsTheControlFrame :
    (0x19 :: ff 15)[0]? = some 0x19 ∧ (Instr.retx, 0x19#8, 0x3F#8, Disp.retx) ∈ controlTable := by decide

theorem witness_CodecRoundTrip : ([] : List Byte).length ≤ 16 ∧ (ff 16).length ≤ 16 := by decide

theorem witness_BitErrorsAreDetected :
    verifyFrame f1 = true ∧ 0 < 144 ∧ 143 < 144 ∧ (0 < 127 ∧ 127 < 144 ∧ 127 = 0 + 127) ∧
    (16 < 143 ∧ 143 = 16 + 127) ∧ (0 < 143 ∧ 143 ≠ 0 + 127) := by decide +kernel

theorem witness_CodecIsPure :
    ∃ l n p, Instr.encode 0 17 ⟨ff 16, rfl⟩ = .encode l n p := ⟨_, _, _, rfl⟩

theorem witness_DataCanLookLikeControl :
    (0x19 :: ff 15).take 2 = [0x19, 0xFF] ∧ 1 ≤ (16 : BitVec 5).toNat ∧
    (0x5A :: ff 15).take (16 : BitVec 5).toNat = 0x5A :: List.replicate ((16 : BitVec 5).toNat - 1) 0xFF := by decide

theorem witness_RxByteCollects :
    (Running State.reset ∧ State.reset.rxcnt < 17) ∧ Running (held (ff 16)) ∧ (held (ff 16)).rxcnt < 17 := by decide

theorem witness_RxByteCompletesACandidate :
    Running (held (w1.take 17)) ∧ (held (w1.take 17)).rxbuf ++ [0x63] = (ser f1).1 := by decide

theorem witness_CrcFailDisposal :
    Running (held (bad.1.take 17)) ∧ (held (bad.1.take 17)).rxbuf ++ [0x75] = bad.1 ∧
    verifyFrame (decodeFrame bad) = false := by decide +kernel

theorem witness_RetxDisposal :
    Running (held ([0x01, 0x19] ++ ff 15)) ∧
    (held ([0x01, 0x19] ++ ff 15)).rxbuf ++ [0x3F] = [0x01, 0x19] ++ List.replicate 15 0xFF ++ [0x3F] := by decide

theorem witness_AckDisposal :
    Running (held ([0x01, 0x15] ++ ff 15)) ∧
    (held ([0x01, 0x15] ++ ff 15)).rxbuf ++ [0x27] = [0x01, 0x15] ++ List.replicate 15 0xFF ++ [0x27] := by decide

theorem witness_NackDisposal :
    Running (held ([0x01, 0x59] ++ ff 15)) ∧
    (held ([0x01, 0x59] ++ ff 15)).rxbuf ++ [0xBF] = [0x01, 0x59] ++ List.replicate 15 0xFF ++ [0xBF] ∧
    .reset ∉ [Instr.deq, .rxByte 0x01] ∧ ∃ u, execAll [.deq, .rxByte 0x01] stoppedA = .next u :=
  ⟨by decide, by decide, by decide, _, rfl⟩

theorem witness_AppDisposal :
    Running (depth 1 [] (held (w1.take 17))) ∧ (depth 1 [] (held (w1.take 17))).rxbuf ++ [0x63] = (ser f1).1 ∧
    classify (decodeFrame (ser f1)) = .app ∧
    ((depth 1 [] (held (w1.take 17))).cfg.qdepth = some 1 ∧ (depth 1 [] (held (w1.take 17))).q.length < 1) ∧
    ((depth 1 [f2] (held (w1.take 17))).cfg.qdepth = some 1 ∧ (depth 1 [f2] (held (w1.take 17))).q.length = 1) := by
  decide +kernel

theorem witness_StoppedDeframerDropsBytes : stoppedA.mode = .aborted ∧ stoppedF.mode = .fault := by decide

theorem witness_StreamingEquivalence :
    AtBoundary State.reset ∧ (w1 ++ w2.take 17).length = 18 * 1 + 17 ∧ 17 < 18 ∧ State.reset.cfg.qdepth = none ∧
    classify (decodeFrame (candidateAt (w1 ++ w2.take 17) 0)) ≠ .nack ∧
    ∃ t, exec (.rxAppend (w1 ++ w2.take 17)) State.reset = .next t ∧ Running t :=
  ⟨by decide, by decide, by decide, rfl, by decide +kernel, _, rfl, by decide +kernel⟩

theorem witness_CandidatesAreCutAtMultiplesOf18 :
    AtBoundary State.reset ∧ ∃ t, exec (.rxAppend (0x00 :: w1 ++ w2)) State.reset = .next t ∧ Running t :=
  ⟨by decide, _, rfl, by decide +kernel⟩

theorem witness_DeframerRefinesTheSourceLoop :
    Running (held (ff 17)) ∧ (held (ff 17)).rxcnt ≤ 17 ∧ (held (ff 17)).cfg.qdepth = none ∧
    ∃ t, exec (.rxAppend w1) (held (ff 17)) = .next t ∧ t.aborted = false :=
  ⟨by decide, by decide, rfl, _, rfl, by decide +kernel⟩

theorem witness_FramesAreQueuedInOrder :
    AtBoundary State.reset ∧ State.reset.cfg.qdepth = none ∧ ∀ f ∈ [f1, f2], classify f = .app := by decide +kernel

theorem witness_DeqTakesTheOldestFrame : State.reset.q = [] ∧ busy.q = [f1] := by decide

theorem witness_QueueIsDrainedInOrder : (depth 2 [f1, f2] State.reset).q[1]? = some f2 := by decide

theorem witness_OneRetxPerBadFrame :
    AtBoundary State.reset ∧ hasRoom State.reset = true ∧ verifyFrame (decodeFrame bad) = false ∧ classify f2 = .app := by
  decide +kernel

theorem witness_FrameArrivalIsItsBytes : AtBoundary State.reset ∧ ¬ AtBoundary busy := by decide

theorem witness_RequestsFollowDispositions :
    (∃ t, exec (.rxByte 0x01) stoppedA = .next t) ∧ ¬ Running stoppedA ∧ (held (ff 16)).rxcnt < 17 ∧
    (Running (held (w1.take 17)) ∧ (held (w1.take 17)).rxbuf ++ [0x63] = (ser f1).1) ∧
    receives .deq = false ∧ Instr.deq ≠ .reset ∧ ∃ t, exec .deq busy = .next t :=
  ⟨⟨_, rfl⟩, by decide, by decide, by decide, rfl, by decide, _, rfl⟩

theorem witness_QueueOverflowStopsTheDeframer :
    (Running (depth 1 [f2] (held (w1.take 17))) ∧ (depth 1 [f2] (held (w1.take 17))).rxbuf ++ [0x63] = (ser f1).1 ∧
      classify (decodeFrame (ser f1)) = .app ∧ (depth 1 [f2] (held (w1.take 17))).cfg.qdepth = some 1 ∧
      (depth 1 [f2] (held (w1.take 17))).q.length = 1) ∧
    (depth 1 [f1] State.reset).qovf = false ∧
    (next? (exec (.rxAppend w2) (depth 1 [f1] State.reset))).map (·.qovf) = some true := by decide +kernel

theorem witness_StoppedModesAreAbsorbing :
    BlockInv busy ∧ stoppedA.mode ≠ .run ∧ stoppedF.mode ≠ .run ∧ receives .nack = true ∧ Instr.deq ≠ .reset ∧
    ∃ t, exec .deq stoppedF = .next t :=
  ⟨busy_inv, by decide, by decide, rfl, by decide, _, rfl⟩

theorem witness_OutputHistoryOnlyGrows : Instr.rxAppend w1 ≠ .reset ∧ ∃ t, exec (.rxAppend w1) busy = .next t :=
  ⟨by decide, _, rfl⟩

theorem witness_ResetClearsTheBlock :
    (stoppedA.mode = .aborted ∨ stoppedA.mode = .fault) ∧ Instr.nack ≠ .reset ∧ ∃ t, exec .nack stoppedA = .next t :=
  ⟨by decide, by decide, _, rfl⟩

theorem witness_StatusShowsTheState : BlockInv busy ∧ busy.cfg.qdepth = none := ⟨busy_inv, rfl⟩

theorem witness_WriteSets :
    (∃ t, exec .deq busy = .next t) ∧ writesCrc .deq = false ∧ Instr.deq ≠ .reset ∧ receives .deq = false ∧
    (∃ t, exec (.crcUpd 1) busy = .next t) ∧ receives (.crcUpd 1) = false ∧ Instr.crcUpd 1 ≠ .deq ∧
    Instr.crcUpd 1 ≠ .reset :=
  ⟨⟨_, rfl⟩, rfl, by decide, rfl, ⟨_, rfl⟩, rfl, by decide, by decide⟩

theorem witness_EveryOperationCompletes :
    Instr.wellFormed (.encode 1 16 ⟨ff 16, rfl⟩) = true ∧ isReserved (.encode 1 16 ⟨ff 16, rfl⟩) = false := by decide

theorem witness_InvariantsKeptByEveryStep : BlockInv busy ∧ ∃ t, step busy = .next t := ⟨busy_inv, _, rfl⟩

theorem witness_CountsKeptByEveryStep : BlockInv busy ∧ Counts busy ∧ ∃ t, step busy = .next t :=
  ⟨busy_inv, busy_counts, _, rfl⟩

theorem witness_RunsFromResetObeyTheCountingLaw :
    ∃ t, core.run 2 { State.reset with cfg := ⟨some 1⟩, pending := [.op 12 0x601, .op 4 0x7] } = .next t ∧
      Running t ∧ t.streamPos = 1 :=
  ⟨_, rfl, by decide, by decide⟩

theorem witness_StreamPositionCountsTheBytesGiven :
    Instr.nack ≠ .reset ∧ (∃ t, exec .nack stoppedA = .next t) ∧ BlockInv busy ∧
    ∃ t, exec (.rxAppend (ff 17)) busy = .next t ∧ Running t :=
  ⟨by decide, ⟨_, rfl⟩, busy_inv, _, rfl, by decide +kernel⟩

theorem witness_EveryNumberDecodesToItsFrame :
    (0x0159FFFFFFFFFFFFFFFFFFFFFFFFFFFFFFBF, Instr.nack) ∈ linkConstants ∧
    (0x0159FFFFFFFFFFFFFFFFFFFFFFFFFFFFFFBE : BitVec 144) ∉ linkConstants.map Prod.fst ∧ 0 < 18 ∧ 17 < 18 := by decide

end Sys2Proof.Tests
end

section
/-! Proofs of the statements of 10_state.md: what an instruction can do, what a stopped deframer does, and that every
step keeps the invariants of rule R33 and the counts of rule R147. -/

namespace Sys2Proof.Proofs

open Sys2Proof.Machine Sys2Proof.Safety

variable {i : Instr} {s t : State}

/-! ### What an instruction can do -/

/-- A receiving instruction is `receive` of as many bytes as it gives. -/
theorem exec_of_receives (hi : receives i = true) (s : State) :
    ∃ bs r, bs.length = bytesGiven i ∧ exec i s = .next (answer r (receive bs s).1) := by
  cases i with
  | rxByte b => exact ⟨[b], _, rfl, rfl⟩
  | rxAppend bs => exact ⟨bs, _, rfl, rfl⟩
  | frame w => exact ⟨w.1, _, w.2, rfl⟩
  | ack | retx | syncObserved | fwUpdateReq | fwUpdateRes | deviceIdReq | deviceIdRes | fwLengthReq | fwLengthRes
  | readyForData | updateSuccessful | nack => exact ⟨_, _, (ctrlBytes _ _).2, rfl⟩
  | _ => cases hi

/-- `RESET`: the whole next state (rules R35, R190). -/
theorem exec_reset (s : State) : exec .reset s = .next { State.reset with cfg := s.cfg, pending := s.pending } := rfl

/-- `DEQ` answers `empty`, or takes the oldest frame (rule R142). -/
theorem exec_deq_cases (h : exec .deq s = .next t) :
    (s.q = [] ∧ t = answer .empty s) ∨
    ∃ f fs, s.q = f :: fs ∧ t = answer (.frame f) { s with q := fs, deqCount := s.deqCount + 1 } := by
  change execDeq s = _ at h
  unfold execDeq at h
  split at h
  next hq => exact .inl ⟨hq, (Host.Outcome.next.inj h).symm⟩
  next f fs hq => exact .inr ⟨f, fs, hq, (Host.Outcome.next.inj h).symm⟩

/-- A completing `ENCODE` only answers (rule R112). -/
theorem exec_encode_next {l : Byte} {n : BitVec 5} {p : Bytes 16} (h : exec (.encode l n p) s = .next t) :
    ∃ r, t = answer r s := by
  change execEncode l n p s = _ at h
  unfold execEncode at h
  split at h
  · exact ⟨_, (Host.Outcome.next.inj h).symm⟩
  · cases h

/-- Everything an instruction that completes can do: start again, receive bytes, take a frame from the queue, or answer,
with `crc` rewritten at most by the instructions that write it (rule R38). -/
theorem exec_next_cases (h : exec i s = .next t) :
    (i = .reset ∧ t = { State.reset with cfg := s.cfg, pending := s.pending }) ∨
    (receives i = true ∧ ∃ bs r, bs.length = bytesGiven i ∧ t = answer r (receive bs s).1) ∨
    (i = .deq ∧ ∃ f fs, s.q = f :: fs ∧ t = answer (.frame f) { s with q := fs, deqCount := s.deqCount + 1 }) ∨
    (i ≠ .reset ∧ receives i = false ∧ ∃ r c, (writesCrc i = false → c = s.crc) ∧ t = answer r (setCrc c s)) := by
  cases hi : receives i with
  | true =>
    obtain ⟨bs, r, hbs, he⟩ := exec_of_receives hi s
    exact .inr (.inl ⟨rfl, bs, r, hbs, Host.Outcome.next.inj (h.symm.trans he)⟩)
  | false =>
    cases i with
    | reset => exact .inl ⟨rfl, (Host.Outcome.next.inj h).symm⟩
    | deq =>
      obtain ⟨-, rfl⟩ | ht := exec_deq_cases h
      · exact .inr (.inr (.inr ⟨nofun, rfl, _, s.crc, fun _ => rfl, rfl⟩))
      · exact .inr (.inr (.inl ⟨rfl, ht⟩))
    | encode l n p =>
      obtain ⟨r, rfl⟩ := exec_encode_next h
      exact .inr (.inr (.inr ⟨nofun, rfl, r, s.crc, fun _ => rfl, rfl⟩))
    | crcClr | crcUpd b | crc8 bs =>
      exact .inr (.inr (.inr ⟨nofun, rfl, _, _, nofun, (Host.Outcome.next.inj h).symm⟩))
    | decode w | verify f | ctrl o =>
      exact .inr (.inr (.inr ⟨nofun, rfl, _, s.crc, fun _ => rfl, (Host.Outcome.next.inj h).symm⟩))
    | reserved8 | reserved9 | reservedA | reservedB | reservedC | reservedD | reservedE | reservedF => cases h
    | _ => cases hi

/-- A completing step does nothing, or runs the instruction invoked next (rules R8, R25). -/
theorem step_next_cases (h : step s = .next t) :
    t = s ∨ ∃ x rest i, s.pending = x :: rest ∧ decode x = .ok i ∧ exec i { s with pending := rest } = .next t := by
  unfold step at h
  split at h
  next => exact .inl (Host.Outcome.next.inj h).symm
  next x rest hp =>
    split at h
    next i hd => exact .inr ⟨x, rest, i, hp, hd, h⟩
    next => cases h

/-! ### The modes -/

/-- The mode is a function of the two flags (rule R37). -/
theorem mode_congr (ha : t.aborted = s.aborted) (hq : t.qovf = s.qovf) : t.mode = s.mode := by
  unfold State.mode
  rw [ha, hq]

/-- Mode `ABORTED` is the flag `aborted` (rule R37). -/
theorem mode_eq_aborted_iff (s : State) : s.mode = .aborted ↔ s.aborted = true := by
  unfold State.mode
  cases s.aborted <;> cases s.qovf <;> simp

/-- Mode `RUN` is both flags clear (rule R37). -/
theorem mode_eq_run_iff (s : State) : s.mode = .run ↔ Running s := by
  unfold State.mode Running
  cases s.aborted <;> cases s.qovf <;> simp

/-- With the flags exclusive (I-4), mode `FAULT` is the flag `qovf`. -/
theorem mode_eq_fault_iff (h : ¬ (s.aborted = true ∧ s.qovf = true)) : s.mode = .fault ↔ s.qovf = true := by
  unfold State.mode
  revert h
  cases s.aborted <;> cases s.qovf <;> simp

/-- Running is not being stopped (rules R37, R139). -/
theorem running_iff_stopped_eq_false (s : State) : Running s ↔ s.stopped = false := (stopped_eq_false_iff s).symm

/-- A mode other than `RUN` is a stopped deframer. -/
theorem stopped_of_mode_ne_run (h : s.mode ≠ .run) : s.stopped = true := by
  rwa [Ne, mode_eq_run_iff, running_iff_stopped_eq_false, Bool.not_eq_false] at h

/-- A stopped deframer is not running. -/
theorem not_running_of_stopped (h : s.stopped = true) : ¬ Running s :=
  mt (running_iff_stopped_eq_false s).1 (by simp [h])

/-- A stopped deframer drops a whole chunk (rules R139, R140). -/
theorem receive_stopped (bs : List Byte) (h : s.stopped = true) :
    receive bs s = ({ s with streamPos := s.streamPos + bs.length }, []) := by
  induction bs generalizing s with
  | nil => rfl
  | cons b bs ih =>
    have hd : (dropByte s).stopped = true := h
    rw [receive_cons, rxStep_stopped h, ih hd, List.length_cons, Nat.add_comm bs.length, ← Nat.add_assoc]
    rfl

/-- In a stopped mode a receiving instruction only advances the stream position and answers (rule R139). -/
theorem exec_receives_stopped (h : s.stopped = true) (hi : receives i = true) :
    ∃ r, exec i s = .next (answer r { s with streamPos := s.streamPos + bytesGiven i }) := by
  obtain ⟨bs, r, hbs, he⟩ := exec_of_receives hi s
  rw [receive_stopped bs h, hbs] at he
  exact ⟨r, he⟩

/-- A stopped deframer keeps its flags, the bytes it holds and the requests, but for `RESET` (rule R37). -/
theorem exec_stopped_frame (h : s.stopped = true) (hi : i ≠ .reset) (he : exec i s = .next t) :
    t.aborted = s.aborted ∧ t.qovf = s.qovf ∧ t.rxbuf = s.rxbuf ∧ t.reqs = s.reqs := by
  obtain ⟨rfl, -⟩ | ⟨-, bs, r, -, rfl⟩ | ⟨-, f, fs, -, rfl⟩ | ⟨-, -, r, c, -, rfl⟩ := exec_next_cases he
  · exact absurd rfl hi
  · simp [receive_stopped bs h]
  · simp
  · simp

/-- Settles O47: a stopped deframer drops every chunk, and no other instruction but `RESET` writes a flag. -/
theorem stoppedModesAreAbsorbing : Obligations.StoppedModesAreAbsorbing := by
  refine ⟨fun s h => ?_, fun i s hs hi => ?_, fun i s t hs hi he => ?_, fun s => ?_⟩
  · exact ⟨mode_eq_run_iff s, mode_eq_aborted_iff s, mode_eq_fault_iff h.exclusive, h.exclusive⟩
  · exact exec_receives_stopped (stopped_of_mode_ne_run hs) hi
  · obtain ⟨ha, hq, hbuf, hreqs⟩ := exec_stopped_frame (stopped_of_mode_ne_run hs) hi he
    exact ⟨mode_congr ha hq, hbuf, hreqs⟩
  · exact ⟨_, exec_reset s, rfl⟩

/-! ### Every step keeps the invariants of rule R33 -/

/-- A property that every byte keeps is kept by a chunk. -/
theorem receive_preserves {P : State → Prop} (hP : ∀ b s, P s → P (rxStep b s).1) (bs : List Byte) (h : P s) :
    P (receive bs s).1 := by
  induction bs generalizing s with
  | nil => exact h
  | cons b bs ih => exact ih (hP b s h)

/-- The invariants at reset, for every parameter and all invocations (rules R33, R35). -/
theorem blockInv_reset (c : Config) (p : List Input) : BlockInv { State.reset with cfg := c, pending := p } where
  collected := Nat.zero_le _
  position _ := rfl
  queued := nofun
  depth _ _ := Nat.zero_le _
  exclusive := nofun
  stoppedEmpty _ := rfl
  unbounded _ := rfl

/-- The invariants do not speak of `crc`, the result and the environment's invocations. -/
theorem blockInv_frame (h : BlockInv s) (c : Byte) (r : Result) (p : List Input) :
    BlockInv { s with crc := c, result := r, pending := p } :=
  ⟨h.collected, h.position, h.queued, h.depth, h.exclusive, h.stoppedEmpty, h.unbounded⟩

/-- Dropping a byte keeps the invariants: in a stopped mode the stream position is not bound to `rxcnt`. -/
theorem blockInv_dropByte (h : BlockInv s) (hs : s.stopped = true) : BlockInv (dropByte s) where
  collected := h.collected
  position hr := absurd hr (not_running_of_stopped hs)
  queued := h.queued
  depth := h.depth
  exclusive := h.exclusive
  stoppedEmpty := h.stoppedEmpty
  unbounded := h.unbounded

/-- Storing one of the first 17 bytes keeps the invariants. -/
theorem blockInv_store (b : Byte) (h : BlockInv s) (hr : Running s) (hl : s.rxbuf.length < 17) :
    BlockInv (store b s) where
  collected := by simpa using hl
  position _ := by
    have hpos : s.rxbuf.length = s.streamPos % 18 := h.position hr
    simp
    omega
  queued := h.queued
  depth := h.depth
  exclusive := h.exclusive
  stoppedEmpty hs := by simp [hr.1, hr.2] at hs
  unbounded := h.unbounded

/-- A completed candidate leaves the buffer at a frame boundary. -/
theorem blockInv_consume (d : Disp) (h : BlockInv s) (hr : Running s) (hl : ¬ s.rxbuf.length < 17) :
    BlockInv (consume d s) where
  collected := Nat.zero_le _
  position _ := by
    have hpos : s.rxbuf.length = s.streamPos % 18 := h.position hr
    have hmax : s.rxbuf.length ≤ 17 := h.collected
    simp
    omega
  queued := h.queued
  depth := h.depth
  exclusive := h.exclusive
  stoppedEmpty _ := rfl
  unbounded := h.unbounded

/-- The disposal of a candidate at a frame boundary keeps the invariants: only what passed all four tests is queued, and
only with room; a flag is set when the other is clear and nothing is held. -/
theorem blockInv_dispose (f : Frame) (h : BlockInv s) (hb : AtBoundary s) : BlockInv (dispose (classify f) f s) := by
  obtain ⟨⟨ha, hq⟩, hbuf⟩ := hb
  rw [dispose_eq]
  obtain ⟨-, hc⟩ | ⟨-, -, hc⟩ | ⟨-, -, -, hc⟩ | ⟨-, -, -, -, hc⟩ | ⟨hv, hretx, hack, hnack, hc⟩ := classify_cases f <;>
    rw [hc]
  · exact ⟨h.collected, h.position, h.queued, h.depth, h.exclusive, h.stoppedEmpty, h.unbounded⟩
  · exact ⟨h.collected, h.position, h.queued, h.depth, h.exclusive, h.stoppedEmpty, h.unbounded⟩
  · exact h
  · exact ⟨h.collected, nofun, h.queued, h.depth, by simp [hq], by simp [hbuf], h.unbounded⟩
  · by_cases hroom : hasRoom s = true
    · have hqueued : ∀ g ∈ s.q ++ [f],
          verifyFrame g = true ∧ isCtrl g 0x19 = false ∧ isCtrl g 0x15 = false ∧ isCtrl g 0x59 = false := by
        intro g hg
        obtain hg | rfl : g ∈ s.q ∨ g = f := by simpa using hg
        · exact h.queued g hg
        · exact ⟨hv, hretx, hack, hnack⟩
      have hdepth : ∀ d, s.cfg.qdepth = some d → (s.q ++ [f]).length ≤ d := fun d hd => by
        simpa using (hasRoom_iff s).1 hroom d hd
      simp only [hroom, if_true]
      exact ⟨h.collected, h.position, hqueued, hdepth, h.exclusive, h.stoppedEmpty, h.unbounded⟩
    · have hfinite : s.cfg.qdepth ≠ none := fun hn => hroom ((hasRoom_iff s).2 (by simp [hn]))
      simp only [hroom, Bool.false_eq_true, if_false]
      exact ⟨h.collected, nofun, h.queued, h.depth, by simp [ha], by simp [hbuf], fun hn => absurd hn hfinite⟩

/-- `RX_BYTE` keeps the invariants. -/
theorem blockInv_rxStep (b : Byte) (s : State) (h : BlockInv s) : BlockInv (rxStep b s).1 := by
  obtain ⟨hs, he⟩ | ⟨hs, hl, he⟩ | ⟨hs, hl, f, -, he⟩ := rxStep_cases b s <;> rw [he]
  · exact blockInv_dropByte h hs
  · exact blockInv_store b h ((stopped_eq_false_iff s).1 hs) hl
  · have hr := (stopped_eq_false_iff s).1 hs
    exact blockInv_dispose f (blockInv_consume _ h hr hl) ⟨hr, rfl⟩

/-- `DEQ` of a frame keeps the invariants. -/
theorem blockInv_deq {f : Frame} {fs : List Frame} (h : BlockInv s) (hq : s.q = f :: fs) :
    BlockInv { s with q := fs, deqCount := s.deqCount + 1 } where
  collected := h.collected
  position := h.position
  queued g hg := h.queued g (by simp [hq, hg])
  depth d hd := by
    have := h.depth d hd
    rw [hq, List.length_cons] at this
    exact Nat.le_of_succ_le this
  exclusive := h.exclusive
  stoppedEmpty := h.stoppedEmpty
  unbounded := h.unbounded

/-- Every instruction keeps the invariants. -/
theorem exec_preserves_blockInv (h : BlockInv s) (he : exec i s = .next t) : BlockInv t := by
  obtain ⟨-, rfl⟩ | ⟨-, bs, r, -, rfl⟩ | ⟨-, f, fs, hq, rfl⟩ | ⟨-, -, r, c, -, rfl⟩ := exec_next_cases he
  · exact blockInv_reset _ _
  · exact blockInv_frame (receive_preserves blockInv_rxStep bs h) _ _ _
  · exact blockInv_frame (blockInv_deq h hq) _ _ _
  · exact blockInv_frame h _ _ _

/-- Every step keeps the invariants. -/
theorem step_preserves_blockInv (h : BlockInv s) (hs : step s = .next t) : BlockInv t := by
  obtain rfl | ⟨x, rest, i, -, -, he⟩ := step_next_cases hs
  · exact h
  · exact exec_preserves_blockInv (blockInv_frame h _ _ _) he

/-! ### Every step keeps the counts of rule R147 -/

/-- The counts at reset, for every parameter and all invocations. -/
theorem counts_reset (c : Config) (p : List Input) : Counts { State.reset with cfg := c, pending := p } :=
  ⟨⟨Nat.zero_le _, fun _ => (Nat.zero_div 18).symm⟩, rfl, rfl, rfl, rfl, ⟨rfl, rfl⟩, rfl⟩

/-- The counts do not speak of `crc`, the result and the environment's invocations. -/
theorem counts_frame (h : Counts s) (c : Byte) (r : Result) (p : List Input) :
    Counts { s with crc := c, result := r, pending := p } :=
  ⟨h.dispositions, h.retx, h.resend, h.ack, h.accepted, h.peerAbort, h.overflow⟩

/-- A dropped byte is counted in the stream position and gives no disposition. -/
theorem counts_dropByte (h : Counts s) (hs : s.stopped = true) : Counts (dropByte s) where
  dispositions :=
    ⟨h.dispositions.1.trans (Nat.div_le_div_right (Nat.le_succ _)),
      fun hr => absurd hr (not_running_of_stopped hs)⟩
  retx := h.retx
  resend := h.resend
  ack := h.ack
  accepted := h.accepted
  peerAbort := h.peerAbort
  overflow := h.overflow

/-- One of the first 17 bytes of a frame gives no disposition. -/
theorem counts_store (b : Byte) (hi : BlockInv s) (h : Counts s) (hr : Running s) (hl : s.rxbuf.length < 17) :
    Counts (store b s) where
  dispositions := by
    have hpos : s.rxbuf.length = s.streamPos % 18 := hi.position hr
    have hdisps := h.dispositions.2 hr
    have heq : (store b s).disps.length = (store b s).streamPos / 18 := by
      simp
      omega
    exact ⟨heq.le, fun _ => heq⟩
  retx := h.retx
  resend := h.resend
  ack := h.ack
  accepted := h.accepted
  peerAbort := h.peerAbort
  overflow := h.overflow

/-- The 18th byte of a frame gives one disposition (`hdisps`), and the disposal emits the request that goes with it:
both flags being clear, each count of rule R147 grows on both sides or on neither. -/
theorem counts_complete (f : Frame) (hi : BlockInv s) (h : Counts s) (hr : Running s) (hl : ¬ s.rxbuf.length < 17) :
    Counts (dispose (classify f) f (consume (classify f) s)) := by
  have hpos : s.rxbuf.length = s.streamPos % 18 := hi.position hr
  have hmax : s.rxbuf.length ≤ 17 := hi.collected
  have hbefore := h.dispositions.2 hr
  have hdisps : s.disps.length + 1 = (s.streamPos + 1) / 18 := by omega
  obtain ⟨ha, hq⟩ := hr
  obtain ⟨-, hretx, hresend, hack, haccepted, hpeer, hoverflow⟩ := h
  simp only [ha, hq, Bool.toNat_false, Nat.add_zero] at hack hpeer hoverflow
  obtain ⟨hpeer, hnack⟩ := hpeer
  rw [dispose_eq]
  cases classify f with
  | app =>
    by_cases hroom : hasRoom (consume .app s) = true
    · have haccepted' : s.reqs.count .ackReq + 1 = s.q.length + 1 + s.deqCount := by omega
      constructor <;> simp [ha, hq, hdisps, hretx, hresend, ← hack, haccepted', hpeer, hnack, hoverflow, hroom]
    · constructor <;> simp [ha, hdisps, hretx, hresend, hack, ← haccepted, hpeer, hnack, hoverflow, hroom]
  | crcFail | retx | ack | nack =>
    constructor <;> simp [ha, hq, hdisps, hretx, hresend, hack, ← haccepted, hpeer, hnack, hoverflow]

/-- `RX_BYTE` keeps the counts. -/
theorem counts_rxStep (b : Byte) (s : State) (hi : BlockInv s) (h : Counts s) : Counts (rxStep b s).1 := by
  obtain ⟨hs, he⟩ | ⟨hs, hl, he⟩ | ⟨hs, hl, f, -, he⟩ := rxStep_cases b s <;> rw [he]
  · exact counts_dropByte h hs
  · exact counts_store b hi h ((stopped_eq_false_iff s).1 hs) hl
  · exact counts_complete f hi h ((stopped_eq_false_iff s).1 hs) hl

/-- `DEQ` of a frame moves it from the queue to those dequeued. -/
theorem counts_deq {f : Frame} {fs : List Frame} (h : Counts s) (hq : s.q = f :: fs) :
    Counts { s with q := fs, deqCount := s.deqCount + 1 } where
  dispositions := h.dispositions
  retx := h.retx
  resend := h.resend
  ack := h.ack
  accepted := by
    have := h.accepted
    rw [hq, List.length_cons] at this
    exact this.trans (Nat.succ_add_eq_add_succ _ _)
  peerAbort := h.peerAbort
  overflow := h.overflow

/-- Every instruction keeps the counts, in a state with the invariants. -/
theorem exec_preserves_counts (hi : BlockInv s) (h : Counts s) (he : exec i s = .next t) : Counts t := by
  obtain ⟨-, rfl⟩ | ⟨-, bs, r, -, rfl⟩ | ⟨-, f, fs, hq, rfl⟩ | ⟨-, -, r, c, -, rfl⟩ := exec_next_cases he
  · exact counts_reset _ _
  · have hboth : BlockInv (receive bs s).1 ∧ Counts (receive bs s).1 :=
      receive_preserves (P := fun u => BlockInv u ∧ Counts u)
        (fun b u hu => ⟨blockInv_rxStep b u hu.1, counts_rxStep b u hu.1 hu.2⟩) bs ⟨hi, h⟩
    exact counts_frame hboth.2 _ _ _
  · exact counts_frame (counts_deq h hq) _ _ _
  · exact counts_frame h _ _ _

/-- Every step keeps the counts, from a state with the invariants. -/
theorem step_preserves_counts (hi : BlockInv s) (h : Counts s) (hs : step s = .next t) : Counts t := by
  obtain rfl | ⟨x, rest, i, -, -, he⟩ := step_next_cases hs
  · exact h
  · exact exec_preserves_counts (blockInv_frame hi _ _ _) (counts_frame h _ _ _) he

/-! ### Runs from reset -/

/-- A property that every step keeps is kept by a run. -/
theorem run_preserves {M : Host.Core} {P : M.State → Prop} (hP : ∀ s t, P s → M.step s = .next t → P t) (n : Nat)
    {s t : M.State} (h : P s) (hrun : M.run n s = .next t) : P t := by
  induction n generalizing s with
  | zero => exact Host.Outcome.next.inj hrun ▸ h
  | succ n ih =>
    rw [Host.Core.run] at hrun
    split at hrun
    next u hu => exact ih (hP s u h hu) hrun
    all_goals cases hrun

/-- The invariants and the counts hold in every state of a run from reset. -/
theorem run_from_reset_invariants {c : Config} {p : List Input} {n : Nat}
    (hrun : core.run n { State.reset with cfg := c, pending := p } = .next t) : BlockInv t ∧ Counts t :=
  run_preserves (M := core) (P := fun u => BlockInv u ∧ Counts u)
    (fun _ _ h hs => ⟨step_preserves_blockInv h.1 hs, step_preserves_counts h.1 h.2 hs⟩) n
    ⟨blockInv_reset c p, counts_reset c p⟩ hrun

/-- Settles O57: the counts of the running mode are the counting law, since no frame has overflowed. -/
theorem runsFromResetObeyTheCountingLaw : Obligations.RunsFromResetObeyTheCountingLaw := by
  intro c p n t hrun
  obtain ⟨hi, h⟩ := run_from_reset_invariants hrun
  refine ⟨hi, fun hr => ?_⟩
  have hack : t.reqs.count .ackReq = t.disps.count .app := by simpa [hr.2] using h.ack
  exact ⟨h.dispositions.2 hr, hi.position hr, h.retx, h.resend, hack, hack.symm.trans h.accepted⟩

/-- Settles O50: the values of rule R35, field by field. -/
theorem resetValues : Obligations.ResetValues :=
  ⟨rfl, rfl, rfl, rfl, rfl, rfl, rfl, (mode_eq_run_iff _).2 ⟨rfl, rfl⟩⟩

end Sys2Proof.Proofs
end

section
/-! Proofs of the statements of 20_memory.md: the deframer takes a chunk apart into candidates of 18 bytes, from the
frame boundary on. -/

namespace Sys2Proof.Proofs

open Sys2Proof.Machine Sys2Proof.Safety

variable {s t : State}

/-! ### Chunks given one after the other -/

/-- A chunk in two parts is its first part, then its second. -/
theorem receive_append (as bs : List Byte) (s : State) :
    receive (as ++ bs) s =
      ((receive bs (receive as s).1).1, (receive as s).2 ++ (receive bs (receive as s).1).2) := by
  induction as generalizing s with
  | nil => rfl
  | cons a as ih => simp only [List.cons_append, receive_cons, ih, List.append_assoc]

/-- A deframer that runs after a chunk ran before it: nothing in a chunk leaves a stopped mode (rule R139). -/
theorem running_of_running_receive {bs : List Byte} (h : Running (receive bs s).1) : Running s := by
  by_contra hs
  have hstopped : s.stopped = true := by rwa [running_iff_stopped_eq_false, Bool.not_eq_false] at hs
  rw [receive_stopped bs hstopped] at h
  exact hs h

/-! ### Collecting and completing a candidate -/

/-- A running deframer with fewer than 17 bytes held stores the byte (rule R131). -/
theorem rxStep_store (b : Byte) (hr : Running s) (hl : s.rxbuf.length < 17) : rxStep b s = (store b s, .none) := by
  obtain ⟨hs, -⟩ | ⟨-, -, he⟩ | ⟨-, hl', -⟩ := rxStep_cases b s
  · exact absurd hr (not_running_of_stopped hs)
  · exact he
  · exact absurd hl hl'

/-- Bytes that do not complete a candidate are held, and nothing else happens (rule R131). -/
theorem receive_collects (bs : List Byte) (hr : Running s) (hl : s.rxbuf.length + bs.length < 18) :
    receive bs s = ({ s with rxbuf := s.rxbuf ++ bs, streamPos := s.streamPos + bs.length }, []) := by
  induction bs generalizing s with
  | nil => simp
  | cons b bs ih =>
    rw [List.length_cons] at hl
    have hstored : (store b s).rxbuf.length + bs.length < 18 := by
      simp
      omega
    rw [receive_cons, rxStep_store b hr (by omega), ih (s := store b s) hr hstored]
    simp [store, Result.dispositions, Nat.add_assoc, Nat.add_comm 1]

/-- The bytes that complete a candidate dispose of it, and of nothing else (rule R132). -/
theorem receive_completes {as : List Byte} {b : Byte} {w : Bytes 18} (hr : Running s)
    (hw : s.rxbuf ++ as ++ [b] = w.1) :
    receive (as ++ [b]) s =
      (dispose (classify (decodeFrame w)) (decodeFrame w)
        (consume (classify (decodeFrame w)) { s with streamPos := s.streamPos + as.length }),
        [classify (decodeFrame w)]) := by
  have hl : s.rxbuf.length + as.length < 18 := by
    have := congrArg List.length hw
    simp [w.2] at this
    omega
  have hlast := rxStep_complete (s := { s with rxbuf := s.rxbuf ++ as, streamPos := s.streamPos + as.length })
    ((running_iff_stopped_eq_false s).1 hr) hw
  rw [receive_append, receive_collects as hr hl, receive_cons, hlast]
  rfl

/-- At a frame boundary 18 bytes are one candidate (rule R130). -/
theorem receive_frame (w : Bytes 18) (hb : AtBoundary s) :
    receive w.1 s =
      (dispose (classify (decodeFrame w)) (decodeFrame w)
        (consume (classify (decodeFrame w)) { s with streamPos := s.streamPos + 17 }),
        [classify (decodeFrame w)]) := by
  obtain ⟨hr, hbuf⟩ := hb
  obtain ⟨as, b, hw⟩ : ∃ as b, w.1 = as ++ [b] := by
    refine (List.eq_nil_or_concat' w.1).resolve_left fun hnil => ?_
    simpa [hnil] using w.2
  have hl : as.length = 17 := by simpa [hw] using w.2
  have he := receive_completes (s := s) (w := w) hr (as := as) (b := b) (by rw [hbuf, hw]; rfl)
  rwa [← hw, hl] at he

/-- A disposal does not touch the bytes held and the dispositions (rules R134 to R138). -/
theorem dispose_frame (d : Disp) (f : Frame) (s : State) :
    (dispose d f s).rxbuf = s.rxbuf ∧ (dispose d f s).disps = s.disps := by
  rw [dispose_eq]
  cases d with
  | app => cases hasRoom s <;> exact ⟨rfl, rfl⟩
  | crcFail | retx | ack | nack => exact ⟨rfl, rfl⟩

/-! ### Candidates by their stream position -/

/-- A chunk of at least 18 bytes begins with a frame. -/
theorem exists_frame_append {bs : List Byte} (h : 18 ≤ bs.length) :
    ∃ (w : Bytes 18) (rest : List Byte), bs = w.1 ++ rest :=
  ⟨⟨bs.take 18, by simp [h]⟩, bs.drop 18, (List.take_append_drop 18 bs).symm⟩

/-- Byte `i` of candidate `k` is the byte at stream position `18k + i` (rule R46). -/
theorem candidateAt_getElem {bs : List Byte} {k i : Nat} (hi : i < (candidateAt bs k).1.length) :
    (candidateAt bs k).1[i] = bs.getD (18 * k + i) 0 :=
  List.getElem_ofFn hi

/-- Candidate 0 is the first 18 bytes (rule R46). -/
theorem candidateAt_zero (w : Bytes 18) (rest : List Byte) : candidateAt (w.1 ++ rest) 0 = w := by
  refine Subtype.ext (List.ext_getElem ((candidateAt _ _).2.trans w.2.symm) fun i hi hw => ?_)
  rw [candidateAt_getElem, Nat.mul_zero, Nat.zero_add, List.getD_append _ _ _ _ hw, List.getD_eq_getElem _ _ hw]

/-- After the first 18 bytes the candidates are those of the rest (rule R46). -/
theorem candidateAt_succ (w : Bytes 18) (rest : List Byte) (k : Nat) :
    candidateAt (w.1 ++ rest) (k + 1) = candidateAt rest k := by
  refine Subtype.ext (List.ext_getElem ((candidateAt _ _).2.trans (candidateAt _ _).2.symm) fun i hi _ => ?_)
  have hpos : 18 * (k + 1) + i - w.1.length = 18 * k + i := by
    rw [w.2]
    omega
  rw [candidateAt_getElem, candidateAt_getElem, List.getD_append_right _ _ _ _ (by rw [w.2]; omega), hpos]

/-- While the deframer runs, a chunk from a frame boundary is cut into its candidates, and the rest is held: by
induction on the number of candidates, the first of which leaves a frame boundary. -/
theorem receive_cuts_candidates {n : Nat} {bs : List Byte} (hn : bs.length / 18 = n) (hb : AtBoundary s)
    (ht : Running (receive bs s).1) :
    (receive bs s).1.disps = s.disps ++ (List.range n).map (fun k => classify (decodeFrame (candidateAt bs k))) ∧
      (receive bs s).1.rxbuf = bs.drop (18 * n) := by
  induction n generalizing bs s with
  | zero =>
    obtain ⟨hr, hbuf⟩ := hb
    rw [receive_collects bs hr (by rw [hbuf, List.length_nil]; omega)]
    simp [hbuf]
  | succ n ih =>
    obtain ⟨w, rest, rfl⟩ := exists_frame_append (bs := bs) (by omega)
    have hrest : rest.length / 18 = n := by
      rw [List.length_append, w.2] at hn
      omega
    obtain ⟨hbuf, hdisps⟩ := dispose_frame (classify (decodeFrame w)) (decodeFrame w)
      (consume (classify (decodeFrame w)) { s with streamPos := s.streamPos + 17 })
    rw [receive_append, receive_frame w hb] at ht ⊢
    obtain ⟨ihdisps, ihbuf⟩ := ih hrest ⟨running_of_running_receive ht, hbuf⟩ ht
    have hdrop : (w.1 ++ rest).drop (18 * (n + 1)) = rest.drop (18 * n) := by
      rw [Nat.mul_succ, Nat.add_comm, ← List.drop_drop, List.drop_left' w.2]
    refine ⟨?_, ihbuf.trans hdrop.symm⟩
    simp [ihdisps, hdisps, List.range_succ_eq_map, candidateAt_zero, candidateAt_succ]

/-- Settles O38: `RX_APPEND` is `receive`, which cuts the candidates from the frame boundary on. -/
theorem candidatesAreCutAtMultiplesOf18 : Obligations.CandidatesAreCutAtMultiplesOf18 := by
  intro bs s t hb he ht
  obtain rfl : deliver bs s = t := Host.Outcome.next.inj he
  exact receive_cuts_candidates rfl hb ht

end Sys2Proof.Proofs
end

section
/-! Proofs of the statements of 30_encoding.md: the opcode map of rule R67, and what rule R73 refuses. -/

namespace Sys2Proof.Proofs

open Sys2Proof.Machine Sys2Proof.Safety

/-! ### The opcode map -/

/-- `Ser` puts the bytes the CRC covers at offsets 0 to 16 (rules R63, R110). -/
theorem ser_take_17 (f : Frame) : (ser f).1.take 17 = covered f.length f.payload :=
  List.take_left' (by simp [f.payload.2])

/-- `Verify` compares CRC8 of offsets 0 to 16 with the crc byte (rule R114). -/
theorem verifyFrame_iff (f : Frame) : verifyFrame f = true ↔ crc8 ((ser f).1.take 17) = f.crc := by
  rw [ser_take_17, verifyFrame, beq_iff_eq]

/-- `IsCtrl` fixes the length and the whole payload (rule R118). -/
theorem isCtrl_iff (f : Frame) (op : Byte) :
    isCtrl f op = true ↔ f.length = 0x01 ∧ f.payload.1 = op :: List.replicate 15 0xFF := by
  rw [isCtrl, Bool.and_eq_true, beq_iff_eq, beq_iff_eq]

/-- A frame has the control-frame shape of at most one opcode. -/
theorem isCtrl_eq_false_of_ne {f : Frame} {op op' : Byte} (h : isCtrl f op = true) (hne : op ≠ op') :
    isCtrl f op' = false := by
  refine Bool.eq_false_iff.mpr fun h' => hne ?_
  obtain ⟨-, hp⟩ := (isCtrl_iff f op).mp h
  obtain ⟨-, hp'⟩ := (isCtrl_iff f op').mp h'
  exact List.head_eq_of_cons_eq (hp.symm.trans hp')

/-- The bytes of a control frame are the control-frame test on offsets 0 to 16 and the crc byte (rule R65). -/
theorem ser_eq_ctrlBytes_iff (f : Frame) (op c : Byte) :
    ser f = ctrlBytes op c ↔ isCtrl f op = true ∧ f.crc = c := by
  have hbytes : (ctrlBytes op c).1 = (0x01 :: op :: List.replicate 15 0xFF) ++ [c] := rfl
  rw [Subtype.ext_iff, ser, hbytes, List.append_singleton_inj, List.cons.injEq, isCtrl_iff]

/-- The crc byte that rule R66 lists for an opcode is CRC8 of the offsets before it. -/
theorem crc8_of_controlTable :
    ∀ r ∈ controlTable, crc8 (0x01 :: r.2.1 :: List.replicate 15 0xFF) = r.2.2.1 := by
  decide +kernel

/-- A constant of rule R66 is a correct crc and the control-frame test (rules R65, R67). -/
theorem ser_eq_ctrlBytes_iff_of_mem {i : Instr} {op c : Byte} {d : Disp} (hr : (i, op, c, d) ∈ controlTable)
    (f : Frame) : ser f = ctrlBytes op c ↔ verifyFrame f = true ∧ isCtrl f op = true := by
  rw [ser_eq_ctrlBytes_iff, and_comm]
  refine and_congr_left fun h => ?_
  obtain ⟨hl, hp⟩ := (isCtrl_iff f op).mp h
  rw [verifyFrame_iff, ser_take_17, covered, hl, hp, crc8_of_controlTable _ hr, eq_comm]

/-- Settles O9: each constant is a correct crc and a control-frame test; at most one of these tests succeeds, so the
order in which `Classify` tries them does not matter. -/
theorem opcodeMap : Obligations.OpcodeMap := by
  intro f
  have hretx := ser_eq_ctrlBytes_iff_of_mem (i := .retx) (op := 0x19) (c := 0x3F) (d := .retx) (by decide) f
  have hack := ser_eq_ctrlBytes_iff_of_mem (i := .ack) (op := 0x15) (c := 0x27) (d := .ack) (by decide) f
  have hnack := ser_eq_ctrlBytes_iff_of_mem (i := .nack) (op := 0x59) (c := 0xBF) (d := .nack) (by decide) f
  simp only [ne_eq, ← verifyFrame_iff, hretx, hack, hnack]
  obtain ⟨hv, hc⟩ | ⟨hv, h19, hc⟩ | ⟨hv, h19, h15, hc⟩ | ⟨hv, h19, h15, h59, hc⟩ | ⟨hv, h19, h15, h59, hc⟩ :=
    classify_cases f
  · simp [hc, hv]
  · have h15 := isCtrl_eq_false_of_ne (op' := 0x15) h19 (by decide)
    have h59 := isCtrl_eq_false_of_ne (op' := 0x59) h19 (by decide)
    simp only [hc, hv, h19, h15, h59]
    decide
  · have h59 := isCtrl_eq_false_of_ne (op' := 0x59) h15 (by decide)
    simp only [hc, hv, h19, h15, h59]
    decide
  · simp only [hc, hv, h19, h15, h59]
    decide
  · simp only [hc, hv, h19, h15, h59]
    decide

/-! ### What is refused -/

/-- The reserved select codes of rule R73, each with the instruction of its own row. -/
def reservedRows : List (BitVec 4 × Instr) :=
  [ (0x8, .reserved8), (0x9, .reserved9), (0xA, .reservedA), (0xB, .reservedB),
    (0xC, .reservedC), (0xD, .reservedD), (0xE, .reservedE), (0xF, .reservedF) ]

/-- Every select code from 0x8 on has a reserved row. -/
theorem exists_mem_reservedRows_of_code :
    ∀ code : BitVec 4, 8 ≤ code.toNat → ∃ r ∈ reservedRows, r.1 = code := by
  decide

/-- Every reserved instruction has a row. -/
theorem exists_mem_reservedRows_of_isReserved {i : Instr} (hi : isReserved i = true) :
    ∃ r ∈ reservedRows, r.2 = i := by
  cases i with
  | reserved8 | reserved9 | reservedA | reservedB | reservedC | reservedD | reservedE | reservedF => decide
  | _ => cases hi

/-- A reserved row: its code's word is read and written as its instruction, which is refused by that code in every
state (rule R73). -/
theorem reservedRows_refused {r : BitVec 4 × Instr} (hr : r ∈ reservedRows) :
    8 ≤ r.1.toNat ∧ isReserved r.2 = true ∧ decode (.op 4 r.1.toNat) = .ok r.2 ∧ encode r.2 = .op 4 r.1.toNat ∧
      ∀ s : State, exec r.2 s = .refused (.reservedSelect r.1) := by
  unfold reservedRows at hr
  fin_cases hr <;> exact ⟨by decide, rfl, rfl, rfl, fun _ => rfl⟩

/-- `ENCODE` of more than 16 payload bytes is refused, in every state (rules R73, R112). -/
theorem exec_encode_refused {n : BitVec 5} (hn : 16 < n.toNat) (l : Byte) (p : Bytes 16) (s : State) :
    exec (.encode l n p) s = .refused (.encodeTooLong n) :=
  if_neg (Nat.not_le.mpr hn)

/-- Settles O5: the reserved rows are all the codes from 0x8 on and all the reserved instructions. -/
theorem reservedCodesAreRefused : Obligations.ReservedCodesAreRefused := by
  refine ⟨fun code hcode => ?_, fun i hi => ?_, fun l n p s hn => exec_encode_refused hn l p s⟩
  · obtain ⟨r, hr, rfl⟩ := exists_mem_reservedRows_of_code code hcode
    exact ⟨r.2, (reservedRows_refused hr).2⟩
  · obtain ⟨r, hr, rfl⟩ := exists_mem_reservedRows_of_isReserved hi
    obtain ⟨hcode, -, hdecode, -⟩ := reservedRows_refused hr
    exact ⟨r.1, hcode, hdecode⟩

end Sys2Proof.Proofs
end

section
/-! Proofs of the statements of 40_crc8.md: the CRC functions and their algebra, and what the register `crc` holds. -/

namespace Sys2Proof.Proofs

open Sys2Proof.Machine Sys2Proof.Safety

/-! ### The bit-step -/

/-- The bit-step as one exclusive-or: the shifted value, and 0x07 when bit 7 is shifted out (rule R91). -/
theorem crcBit_eq_xor (c : Byte) : crcBit c = (c <<< 1) ^^^ if c.getLsbD 7 then 0x07 else 0x00 := by
  unfold crcBit
  split
  · rfl
  · exact (BitVec.xor_zero).symm

/-- Bit 7 is set from 128 on. -/
theorem getLsbD_seven_eq_decide (c : Byte) : c.getLsbD 7 = decide (128 ≤ c.toNat) := c.msb_eq_decide

/-- The bit-step on numbers (rule R91). -/
theorem toNat_crcBit (c : Byte) :
    (crcBit c).toNat = (2 * c.toNat % 256) ^^^ (if 128 ≤ c.toNat then 7 else 0) := by
  have hshift : (c <<< 1).toNat = 2 * c.toNat % 256 := by
    rw [BitVec.toNat_shiftLeft, Nat.shiftLeft_eq, pow_one, Nat.mul_comm]
  rw [crcBit_eq_xor, getLsbD_seven_eq_decide, BitVec.toNat_xor, hshift]
  simp only [decide_eq_true_eq, apply_ite BitVec.toNat]
  rfl

/-- The bit-step is linear over exclusive-or (rule R100, L-1). -/
theorem crcBit_xor (a b : Byte) : crcBit (a ^^^ b) = crcBit a ^^^ crcBit b := by
  have hmask : ∀ p q : Bool, (if p ^^ q then 0x07 else 0x00 : Byte) =
      (if p then 0x07 else 0x00) ^^^ (if q then 0x07 else 0x00) := by decide
  rw [crcBit_eq_xor, crcBit_eq_xor a, crcBit_eq_xor b, BitVec.shiftLeft_xor_distrib, BitVec.getLsbD_xor, hmask]
  ac_rfl

@[simp] theorem crcBit_zero : crcBit 0x00 = 0x00 := rfl

/-- The bit shifted out comes back as bit 0, which the shift clears and 0x07 sets (rule R100, L-2). -/
theorem getLsbD_zero_crcBit (c : Byte) : (crcBit c).getLsbD 0 = c.getLsbD 7 := by
  rw [crcBit_eq_xor]
  cases c.getLsbD 7 <;> simp

/-- Being linear, the bit-step is injective because only 0x00 goes to 0x00 (rule R100, L-2). -/
theorem crcBit_bijective : Function.Bijective crcBit := by
  have hkernel : ∀ c : Byte, crcBit c = 0x00 → c = 0x00 := by decide
  refine Finite.injective_iff_bijective.mp fun a b hab => BitVec.xor_eq_zero_iff.mp (hkernel _ ?_)
  rw [crcBit_xor, hab]
  exact BitVec.xor_self

/-- The bit-step has order 127 at 0x01: 127 is prime, so no step count between 1 and 127 returns (rule R100, L-6). -/
theorem minimalPeriod_crcBit : Function.minimalPeriod crcBit 0x01 = 127 := by
  have : Fact (Nat.Prime 127) := ⟨by norm_num⟩
  exact Function.minimalPeriod_eq_prime (show crcBit^[127] 0x01 = 0x01 by decide +kernel)
    (show crcBit 0x01 ≠ 0x01 by decide)

/-! ### The byte-step -/

/-- Several bit-steps are linear over exclusive-or. -/
theorem crcBit_iterate_xor (n : Nat) (a b : Byte) : crcBit^[n] (a ^^^ b) = crcBit^[n] a ^^^ crcBit^[n] b :=
  Function.Semiconj₂.iterate crcBit_xor n a b

/-- The byte-step depends on the exclusive-or of its operands only (rule R92). -/
theorem crcByte_eq_crcByte_zero_xor (c b : Byte) : crcByte c b = crcByte 0x00 (c ^^^ b) := by
  simp [crcByte]

/-- The byte-step does not tell the register and the input byte apart (rule R92). -/
theorem crcByte_comm (c b : Byte) : crcByte c b = crcByte b c := by
  rw [crcByte, crcByte, BitVec.xor_comm]

@[simp] theorem crcByte_zero_zero : crcByte 0x00 0x00 = 0x00 := rfl

/-- The byte-step is linear in both operands together (rule R100, L-1). -/
theorem crcByte_xor (a b x y : Byte) : crcByte (a ^^^ b) (x ^^^ y) = crcByte a x ^^^ crcByte b y := by
  have hswap : a ^^^ b ^^^ (x ^^^ y) = (a ^^^ x) ^^^ (b ^^^ y) := by ac_rfl
  rw [crcByte, hswap, crcBit_iterate_xor]
  rfl

/-- With the input byte fixed the byte-step is a bijection of the register (rule R100, L-2). -/
theorem crcByte_bijective_left (b : Byte) : Function.Bijective fun c => crcByte c b := by
  have hxor : Function.Involutive fun c : Byte => c ^^^ b :=
    fun c => by simp only [BitVec.xor_assoc, BitVec.xor_self, BitVec.xor_zero]
  exact (crcBit_bijective.iterate 8).comp hxor.bijective

/-- With the register fixed the byte-step is a bijection of the input byte (rule R100, L-2). -/
theorem crcByte_bijective_right (c : Byte) : Function.Bijective fun b => crcByte c b := by
  simpa only [crcByte_comm c] using crcByte_bijective_left c

/-- The byte-step gives 0x00 exactly when the input byte is the register (rule R100, L-5). -/
theorem crcByte_eq_zero_iff (c b : Byte) : crcByte c b = 0x00 ↔ b = c := by
  have hself : crcByte c c = 0x00 := by rw [crcByte_eq_crcByte_zero_xor, BitVec.xor_self]; rfl
  rw [← hself]
  exact (crcByte_bijective_right c).injective.eq_iff

/-- The table is the byte-step of the bytes 0x00 to 0xFF from register 0x00 (rule R99). -/
theorem crcTable_eq_map_range : crcTable = (List.range 256).map fun n => crcByte 0x00 (BitVec.ofNat 8 n) := by
  decide +kernel

/-- The table at `v` is the byte-step of `v` from register 0x00 (rule R99). -/
theorem crcTable_getElem? (v : Byte) : crcTable[v.toNat]? = some (crcByte 0x00 v) := by
  rw [crcTable_eq_map_range, List.getElem?_map, List.getElem?_range v.isLt, Option.map_some, BitVec.ofNat_toNat,
    BitVec.setWidth_eq]

/-! ### CRC8 of a sequence -/

/-- The last byte is taken last (rule R93). -/
theorem crc8_concat (bs : List Byte) (b : Byte) : crc8 (bs ++ [b]) = crcByte (crc8 bs) b :=
  List.foldl_concat _ _ _ _

/-- The fold of two sequences of equal length is linear, from any two registers: by induction on both. -/
theorem foldl_crcByte_zipWith_xor {s t : List Byte} (h : s.length = t.length) (a b : Byte) :
    (List.zipWith (· ^^^ ·) s t).foldl crcByte (a ^^^ b) = s.foldl crcByte a ^^^ t.foldl crcByte b := by
  induction s generalizing t a b with
  | nil =>
    obtain rfl := List.length_eq_zero_iff.mp h.symm
    rfl
  | cons x s ih =>
    obtain ⟨y, t, rfl⟩ := List.exists_cons_of_length_eq_add_one h.symm
    rw [List.zipWith_cons_cons, List.foldl_cons, crcByte_xor, ih (Nat.succ.inj h)]
    rfl

/-- CRC8 is linear on sequences of equal length, since the initial value is 0x00 (rule R100, L-3). -/
theorem crc8_zipWith_xor {s t : List Byte} (h : s.length = t.length) :
    crc8 (List.zipWith (· ^^^ ·) s t) = crc8 s ^^^ crc8 t :=
  foldl_crcByte_zipWith_xor h 0x00 0x00

/-- Zero bytes do not move the register from 0x00 (rule R100, L-4). -/
theorem crc8_replicate_zero (k : Nat) : crc8 (List.replicate k 0x00) = 0x00 := by
  induction k with
  | zero => rfl
  | succ k ih => rw [List.replicate_succ', crc8_concat, ih, crcByte_zero_zero]

/-- Leading zero bytes are invisible (rule R100, L-4). -/
theorem crc8_replicate_zero_append (k : Nat) (s : List Byte) : crc8 (List.replicate k 0x00 ++ s) = crc8 s := by
  have hzeros : (List.replicate k 0x00).foldl crcByte 0x00 = 0x00 := crc8_replicate_zero k
  rw [crc8, List.foldl_append, hzeros]
  rfl

/-- The residue: a sequence closed by a byte has CRC8 0x00 exactly when that byte is its CRC8 (rule R100, L-5). -/
theorem crc8_concat_eq_zero_iff (s : List Byte) (x : Byte) : crc8 (s ++ [x]) = 0x00 ↔ x = crc8 s := by
  rw [crc8_concat, crcByte_eq_zero_iff]

/-! ### The register -/

/-- `CRC_CLR`: the whole next state (rule R94). -/
theorem exec_crcClr (s : State) : exec .crcClr s = .next { s with crc := 0x00, result := .none } := rfl

/-- `CRC_UPD b`: the whole next state (rule R95). -/
theorem exec_crcUpd (b : Byte) (s : State) :
    exec (.crcUpd b) s = .next { s with crc := crcByte s.crc b, result := .none } := rfl

/-- The deframer does not write `crc` (rule R21). -/
@[simp] theorem receive_crc (bs : List Byte) (s : State) : (receive bs s).1.crc = s.crc :=
  receive_preserves (P := fun u => u.crc = s.crc) (fun b u hu => (rxStep_frame b u).1.trans hu) bs rfl

variable {i : Instr} {s t : State}

/-- What is not an operation of the generator or `RESET` keeps `crc` (rules R21, R38). -/
theorem exec_preserves_crc (hi : writesCrc i = false) (h : exec i s = .next t) : t.crc = s.crc := by
  obtain ⟨rfl, -⟩ | ⟨-, bs, r, -, rfl⟩ | ⟨-, f, fs, -, rfl⟩ | ⟨-, -, r, c, hc, rfl⟩ := exec_next_cases h
  · cases hi
  · simp
  · rfl
  · exact hc hi

/-- What does not start the register again folds in the byte it gives, if it gives one (rules R95, R96). -/
theorem exec_folds_crcUpdByte (hi : ¬ (i = .crcClr ∨ i = .reset ∨ ∃ bs, i = .crc8 bs)) (h : exec i s = .next t) :
    t.crc = (crcUpdByte i).toList.foldl crcByte s.crc := by
  cases i with
  | reset | crcClr | crc8 bs => simp at hi
  | crcUpd b => exact congrArg State.crc (Host.Outcome.next.inj h).symm
  | _ => exact exec_preserves_crc rfl h

/-- A sequence that completes ran its first instruction, then the rest. -/
theorem execAll_cons_next {is : List Instr} (h : execAll (i :: is) s = .next t) :
    ∃ u, exec i s = .next u ∧ execAll is u = .next t := by
  unfold execAll at h
  split at h
  next u hu => exact ⟨u, hu, h⟩
  all_goals cases h

/-- A sequence in which nothing starts the register again folds in the bytes it gives, in order: by induction on the
sequence, from any register. -/
theorem execAll_folds_crcUpdByte {is : List Instr}
    (his : ∀ i ∈ is, ¬ (i = .crcClr ∨ i = .reset ∨ ∃ bs, i = .crc8 bs)) (h : execAll is s = .next t) :
    t.crc = (is.filterMap crcUpdByte).foldl crcByte s.crc := by
  induction is generalizing s with
  | nil => exact congrArg State.crc (Host.Outcome.next.inj h).symm
  | cons i is ih =>
    obtain ⟨u, hu, hrest⟩ := execAll_cons_next h
    obtain ⟨hi, his⟩ := List.forall_mem_cons.mp his
    have hcons : (i :: is).filterMap crcUpdByte = (crcUpdByte i).toList ++ is.filterMap crcUpdByte := by
      cases hb : crcUpdByte i <;> simp [hb]
    rw [hcons, List.foldl_append, ← exec_folds_crcUpdByte hi hu]
    exact ih his hrest

/-- `CRC_CLR` and `RESET` leave `crc` at its initial value (rules R94, R190). -/
theorem exec_crcClr_or_reset_crc (hi : i = .crcClr ∨ i = .reset) (h : exec i s = .next t) : t.crc = 0x00 := by
  obtain rfl | rfl := hi <;> exact congrArg State.crc (Host.Outcome.next.inj h).symm

/-! ### The statements of 40_crc8.md -/

/-- Settles O15: after the first instruction `crc` is 0x00, and from there the others fold in the bytes they give. -/
theorem crcReadsBackTheBytesGiven : Obligations.CrcReadsBackTheBytesGiven := by
  intro start is s t hstart his h
  obtain ⟨u, hu, hrest⟩ := execAll_cons_next h
  have hread : t.crc = (is.filterMap crcUpdByte).foldl crcByte u.crc := execAll_folds_crcUpdByte his hrest
  rwa [exec_crcClr_or_reset_crc hstart hu] at hread

/-- Settles O17: the entries are checked, and the byte-step depends on `c ^ b` only. -/
theorem crcTableAgrees : Obligations.CrcTableAgrees := by
  refine ⟨by rw [crcTable_eq_map_range, List.length_map, List.length_range], crcTable_getElem?, fun c b => ?_⟩
  rw [crcTable_getElem?, ← crcByte_eq_crcByte_zero_xor]

/-- Settles O18: (L-1) to (L-6) in order. -/
theorem crcLaws : Obligations.CrcLaws := by
  refine ⟨⟨crcBit_xor, crcBit_zero⟩,
    ⟨crcBit_bijective, getLsbD_zero_crcBit, crcByte_bijective_left, crcByte_bijective_right 0x00⟩,
    fun s t => crc8_zipWith_xor, ⟨crc8_replicate_zero_append, crc8_replicate_zero⟩,
    ⟨fun s => (crc8_concat_eq_zero_iff s _).mpr rfl, crc8_concat_eq_zero_iff⟩, ?_, fun k hpos hlt => ?_⟩
  · exact minimalPeriod_crcBit ▸ Function.iterate_minimalPeriod
  · exact Function.not_isPeriodicPt_of_pos_of_lt_minimalPeriod hpos.ne' (minimalPeriod_crcBit.symm ▸ hlt)

/-- Settles O11: the bit-step on numbers; the byte-step is its eight bit-steps by definition. -/
theorem crcBitStepAndByteStep : Obligations.CrcBitStepAndByteStep :=
  ⟨toNat_crcBit, rfl, rfl, rfl, fun _ _ => rfl, rfl, rfl, rfl⟩

/-- Settles O12: the law of the last byte, with the examples evaluated. -/
theorem crcOfASequence : Obligations.CrcOfASequence :=
  ⟨rfl, crc8_concat, rfl, rfl, rfl, by decide +kernel⟩

/-- Settles O13: the next state of `CRC_CLR`. -/
theorem crcClrClearsTheRegister : Obligations.CrcClrClearsTheRegister := exec_crcClr

/-- Settles O14: the next state of `CRC_UPD`. -/
theorem crcUpdFoldsOneByte : Obligations.CrcUpdFoldsOneByte := exec_crcUpd

end Sys2Proof.Proofs
end

section
/-! Proofs of the statements of 41_frame_codec.md: what the codec operations return, the round trip, and which bit
errors the CRC byte detects. -/

namespace Sys2Proof.Proofs

open Sys2Proof.Machine Sys2Proof.Safety

/-! ### `Ser` and `Decode` -/

/-- `Ser` keeps all three fields (rule R110). -/
theorem ser_injective : Function.Injective ser := by
  intro f g h
  obtain ⟨hbody, hcrc⟩ := List.append_singleton_inj.mp (Subtype.ext_iff.mp h)
  obtain ⟨hlength, hpayload⟩ := List.cons_eq_cons.mp hbody
  cases f
  cases g
  rw [Frame.mk.injEq]
  exact ⟨hlength, Subtype.ext hpayload, hcrc⟩

/-- `Ser` undoes `Decode` (rule R116). -/
@[simp] theorem ser_decodeFrame (w : Bytes 18) : ser (decodeFrame w) = w := ser_splitBytes w

/-- `Decode` undoes `Ser` (rule R116). -/
@[simp] theorem decodeFrame_ser (f : Frame) : decodeFrame (ser f) = f := ser_injective (ser_decodeFrame (ser f))

/-! ### What `Encode` builds -/

/-- The frame that `Encode` serialises: length, padded payload, and the CRC8 of both (rule R112). -/
def encodedFrame (l : Byte) (p : List Byte) (h : p.length ≤ 16) : Frame where
  length := l
  payload := pad p h
  crc := crc8 (covered l (pad p h))

/-- `Encode` answers the 18 bytes of that frame (rules R110, R112). -/
theorem encodeFrame_eq_ser (l : Byte) (p : List Byte) (h : p.length ≤ 16) :
    encodeFrame l p h = ser (encodedFrame l p h) := rfl

/-- The bytes of an encoded frame (rules R62, R112). -/
theorem encodeFrame_val (l : Byte) (p : List Byte) (h : p.length ≤ 16) :
    (encodeFrame l p h).1 = l :: (p ++ List.replicate (16 - p.length) 0xFF) ++
      [crc8 (l :: (p ++ List.replicate (16 - p.length) 0xFF))] := rfl

/-- Decoding an encoded frame gives back its fields (rule R116). -/
@[simp] theorem decodeFrame_encodeFrame (l : Byte) (p : List Byte) (h : p.length ≤ 16) :
    decodeFrame (encodeFrame l p h) = encodedFrame l p h := by
  rw [encodeFrame_eq_ser, decodeFrame_ser]

/-- An encoded frame carries the CRC8 that `Verify` recomputes (rules R112, R114). -/
@[simp] theorem verifyFrame_encodedFrame (l : Byte) (p : List Byte) (h : p.length ≤ 16) :
    verifyFrame (encodedFrame l p h) = true := beq_self_eq_true _

/-- `Encode` depends on the payload bytes only. -/
theorem encodeFrame_congr {p p' : List Byte} (hp : p = p') (l : Byte) (h : p.length ≤ 16) :
    encodeFrame l p h = encodeFrame l p' (hp ▸ h) := by
  subst hp
  rfl

/-! ### The operations -/

/-- Up to 16 bytes, the payload operand of `ENCODE` has `n` bytes (rule R71). -/
theorem payloadOperand_length {n : BitVec 5} (hn : n.toNat ≤ 16) (p : Bytes 16) :
    (payloadOperand n p).length = n.toNat := by
  rw [payloadOperand, List.length_take, p.2, Nat.min_eq_left hn]

/-- A payload operand of one byte is the first of the bytes given (rule R71). -/
theorem payloadOperand_one {p : Bytes 16} {op : Byte} (hp : p.1[0]? = some op) : payloadOperand 1 p = [op] := by
  have htake : payloadOperand 1 p = p.1.take 1 := rfl
  rw [htake, List.take_one, List.head?_eq_getElem?, hp, Option.toList_some]

/-- `ENCODE` of up to 16 payload bytes: the whole next state (rule R112). -/
theorem exec_encode {n : BitVec 5} (hn : n.toNat ≤ 16) (l : Byte) (p : Bytes 16) (s : State) :
    exec (.encode l n p) s =
      .next (answer (.bytes (encodeFrame l (payloadOperand n p) (payloadOperand_length_le n p))) s) :=
  if_pos hn

/-- `CTRL op` is `ENCODE 1, [op]`, whatever the fifteen unused payload bytes are (rules R83, R119). -/
theorem exec_encode_one_eq_exec_ctrl {p : Bytes 16} {op : Byte} (hp : p.1[0]? = some op) (s : State) :
    exec (.encode 0x01 1 p) s = exec (.ctrl op) s := by
  rw [exec_encode (by decide), encodeFrame_congr (payloadOperand_one hp)]
  rfl

/-! ### `Verify` by the residue -/

/-- A frame verifies exactly when the CRC8 of all its 18 bytes is 0x00 (rule R114). -/
theorem verifyFrame_iff_residue (f : Frame) : verifyFrame f = true ↔ crc8 (ser f).1 = 0x00 := by
  have hser : (ser f).1 = covered f.length f.payload ++ [f.crc] := rfl
  rw [hser, crc8_concat_eq_zero_iff, verifyFrame, beq_iff_eq, eq_comm]

/-- 18 bytes verify exactly when their CRC8 is 0x00 (rule R114). -/
theorem verifyFrame_decodeFrame_iff (w : Bytes 18) : verifyFrame (decodeFrame w) = true ↔ crc8 w.1 = 0x00 := by
  rw [verifyFrame_iff_residue, ser_decodeFrame]

/-! ### Flipped bits -/

/-- A difference in the register goes through the bit-steps of the bytes that follow: by induction on them. -/
theorem foldl_crcByte_xor (bs : List Byte) (c d : Byte) :
    bs.foldl crcByte (c ^^^ d) = bs.foldl crcByte c ^^^ crcBit^[8 * bs.length] d := by
  induction bs generalizing c d with
  | nil => rfl
  | cons b bs ih =>
    have hstep : crcByte (c ^^^ d) b = crcByte c b ^^^ crcBit^[8] d := by
      simpa [crcByte] using crcByte_xor c d b 0x00
    rw [List.foldl_cons, hstep, ih, List.foldl_cons, List.length_cons, Nat.mul_succ, Function.iterate_add_apply]

/-- Exclusive-oring a mask into one byte changes the CRC8 by that mask, put through the bit-steps of this byte and of
those after it. -/
theorem crc8_append_xor_cons (as cs : List Byte) (b m : Byte) :
    crc8 (as ++ (b ^^^ m) :: cs) = crc8 (as ++ b :: cs) ^^^ crcBit^[8 * (cs.length + 1)] m := by
  have hstep (c : Byte) : crcByte c (b ^^^ m) = crcByte c b ^^^ crcBit^[8] m := by
    simpa [crcByte] using crcByte_xor c 0x00 b m
  simp only [crc8, List.foldl_append, List.foldl_cons, hstep, foldl_crcByte_xor, Nat.mul_succ,
    Function.iterate_add_apply]

/-- The same for the byte at place `k`: from it to the end there are `length - k` bytes. -/
theorem crc8_modify_xor {bs : List Byte} {k : Nat} (hk : k < bs.length) (m : Byte) :
    crc8 (bs.modify k (· ^^^ m)) = crc8 bs ^^^ crcBit^[8 * (bs.length - k)] m := by
  have hcount : (bs.drop (k + 1)).length + 1 = bs.length - k := by
    rw [List.length_drop]
    omega
  rw [List.modify_eq_take_cons_drop hk, crc8_append_xor_cons, ← List.drop_eq_getElem_cons hk, List.take_append_drop,
    hcount]

/-- Flipping bit `i` of 18 bytes, counted from bit 7 of offset 0, changes the CRC8 by 0x01 after `151 - i` bit-steps:
8 per byte from the flipped one on, and `7 - i % 8` from 0x01 to the bit's place in its byte (rules R100, R117). -/
theorem crc8_flipBit (w : Bytes 18) {i : Nat} (hi : i < 144) :
    crc8 (flipBit w i).1 = crc8 w.1 ^^^ crcBit^[151 - i] 0x01 := by
  have hmask : ∀ m < 8, 0x80#8 >>> m = crcBit^[7 - m] 0x01 := by decide
  have hsteps : 8 * (w.1.length - i / 8) + (7 - i % 8) = 151 - i := by
    rw [w.2]
    omega
  rw [flipBit, crc8_modify_xor (by rw [w.2]; omega), hmask _ (Nat.mod_lt i (by decide)), ← Function.iterate_add_apply,
    hsteps]

/-- After one flip in a frame that verifies, the flip's difference is the CRC8 of the 18 bytes. -/
theorem crc8_flipBit_ser {f : Frame} (hf : verifyFrame f = true) {i : Nat} (hi : i < 144) :
    crc8 (flipBit (ser f) i).1 = crcBit^[151 - i] 0x01 := by
  rw [crc8_flipBit _ hi, (verifyFrame_iff_residue f).mp hf]
  exact BitVec.zero_xor

/-- Bit-steps do not bring 0x01 to 0x00 (rule R100, L-2). -/
theorem crcBit_iterate_one_ne_zero (n : Nat) : crcBit^[n] 0x01 ≠ 0x00 := by
  intro h
  rw [← Function.iterate_fixed crcBit_zero n] at h
  exact absurd ((crcBit_bijective.iterate n).injective h) (by decide)

/-- Bit-steps bring 0x01 to the same byte exactly when their numbers differ by a multiple of 127 (rule R100, L-6). -/
theorem crcBit_iterate_add_one_eq_iff (n k : Nat) : crcBit^[n + k] 0x01 = crcBit^[n] 0x01 ↔ 127 ∣ k := by
  rw [Function.iterate_add_apply, (crcBit_bijective.iterate n).injective.eq_iff, ← minimalPeriod_crcBit,
    ← Function.isPeriodicPt_iff_minimalPeriod_dvd]
  rfl

/-- Two flipped bits change the CRC8 alike exactly when they are 127 positions apart (rule R117). -/
theorem flipped_bits_cancel_iff {i j : Nat} (hij : i < j) (hj : j < 144) :
    crcBit^[151 - i] 0x01 = crcBit^[151 - j] 0x01 ↔ j = i + 127 := by
  have hdist : 151 - i = (151 - j) + (j - i) := by omega
  rw [hdist, crcBit_iterate_add_one_eq_iff]
  omega

/-! ### The statements of 41_frame_codec.md -/

/-- Settles O22: `VERIFY` answers the comparison, which the residue law turns into CRC8 of all 18 bytes. -/
theorem verifyRecomputesTheCrc : Obligations.VerifyRecomputesTheCrc :=
  ⟨fun _ _ => rfl, verifyFrame_iff_residue, by decide +kernel, by decide +kernel⟩

/-- Settles O24: an encoded frame is the serialised frame, and `Ser` and `Decode` undo each other. -/
theorem codecRoundTrip : Obligations.CodecRoundTrip := by
  refine ⟨fun l p h => ?_, ser_decodeFrame, decodeFrame_ser⟩
  rw [decodeFrame_encodeFrame]
  exact ⟨rfl, rfl, rfl, verifyFrame_encodedFrame l p h⟩

/-- Settles O25: a frame that verifies has CRC8 0x00, so what a flip changes it by is what is left; one flip leaves
something, and two leave nothing exactly when they cancel. -/
theorem bitErrorsAreDetected : Obligations.BitErrorsAreDetected := by
  refine ⟨fun f i hf hi => ?_, fun f i j hf hij hj => ?_, fun l p => ?_⟩
  · rw [Bool.eq_false_iff, ne_eq, verifyFrame_decodeFrame_iff, crc8_flipBit_ser hf hi]
    exact crcBit_iterate_one_ne_zero _
  · rw [verifyFrame_decodeFrame_iff, crc8_flipBit _ hj, crc8_flipBit_ser hf (hij.trans hj)]
    exact BitVec.xor_eq_zero_iff.trans (flipped_bits_cancel_iff hij hj)
  · exact ⟨crc8 (covered l p), beq_self_eq_true _, fun c hc => (beq_iff_eq.mp hc).symm⟩

/-- Settles O20: `ENCODE` answers `Encode` of the payload operand, which has `n` bytes. -/
theorem encodeBuildsTheFrame : Obligations.EncodeBuildsTheFrame := by
  refine fun l n p s => ⟨fun hn => ⟨_, ?_, exec_encode hn l p s, ?_⟩, fun hn => exec_encode_refused hn l p s⟩
  · rw [encodeFrame_val, payloadOperand_length hn]
    rfl
  · rw [decodeFrame_encodeFrame, verifyFrame_encodedFrame]

/-- Settles O21: any 18 bytes are a serialised frame, and it is the one returned. -/
theorem decodeSplitsWithoutValidation : Obligations.DecodeSplitsWithoutValidation := by
  intro w s
  obtain ⟨f, rfl⟩ : ∃ f, ser f = w := ⟨decodeFrame w, ser_decodeFrame w⟩
  have hexec : exec (.decode (ser f)) s = .next { s with result := .frame (decodeFrame (ser f)) } := rfl
  have hser : (ser f).1 = f.length :: (f.payload.1 ++ [f.crc]) := rfl
  rw [decodeFrame_ser] at hexec
  refine ⟨f, hexec, rfl, fun i hi => ?_, ?_⟩
  · rw [hser, List.getElem?_cons_succ, List.getElem?_append_left (by rwa [f.payload.2])]
  · rw [hser, List.getElem?_cons_succ, List.getElem?_append_right f.payload.2.le, f.payload.2]
    rfl

/-- Settles O23: `CTRL op` answers `Encode` of the one byte, and rule R66 lists the CRC8 of what it covers. -/
theorem ctrlBuildsTheControlFrame : Obligations.CtrlBuildsTheControlFrame := by
  intro op s
  refine ⟨encodeFrame 0x01 [op] (by simp), rfl, rfl, fun p hp => exec_encode_one_eq_exec_ctrl hp s, ?_, ?_, ?_⟩
  · rw [decodeFrame_encodeFrame, isCtrl_iff]
    exact ⟨rfl, rfl⟩
  · rw [decodeFrame_encodeFrame, verifyFrame_encodedFrame]
  · rintro r hr rfl
    rw [encodeFrame_eq_ser, ser_eq_ctrlBytes_iff, isCtrl_iff]
    exact ⟨⟨rfl, rfl⟩, crc8_of_controlTable r hr⟩

end Sys2Proof.Proofs
end

section
/-! Proofs of the statements of 42_deframer.md: what `RX_BYTE` does, disposal by disposal, what a chunk does however it
is cut, and what `DEQ` takes. -/

namespace Sys2Proof.Proofs

open Sys2Proof.Machine Sys2Proof.Safety

variable {s t : State}

/-! ### `RX_BYTE` and the disposals -/

/-- `RX_BYTE` is one byte of the deframer and the answer it gives. -/
theorem exec_rxByte (b : Byte) (s : State) : exec (.rxByte b) s = .next (answer (rxStep b s).2 (rxStep b s).1) := rfl

/-- `RX_APPEND` is a chunk of the deframer and the dispositions it gives. -/
theorem exec_rxAppend (bs : List Byte) (s : State) :
    exec (.rxAppend bs) s = .next (answer (.disps (receive bs s).2) (receive bs s).1) := rfl

/-- The byte that completes a candidate: the candidate is consumed, then disposed of as it is classified (rule R132). -/
theorem exec_rxByte_complete {b : Byte} {w : Bytes 18} {d : Disp} (hr : Running s) (hw : s.rxbuf ++ [b] = w.1)
    (hd : classify (decodeFrame w) = d) :
    exec (.rxByte b) s = .next (answer (.disp d) (dispose d (decodeFrame w) (consume d s))) := by
  rw [exec_rxByte, rxStep_complete ((running_iff_stopped_eq_false s).1 hr) hw, hd]

/-- A frame with a wrong crc is classified before anything else is looked at (rule R133). -/
theorem classify_of_verifyFrame_eq_false {f : Frame} (h : verifyFrame f = false) : classify f = .crcFail := by
  simp [classify, h]

/-- The twelve constants of rule R66 have the disposition that the table lists. -/
theorem classify_of_controlTable :
    ∀ r ∈ controlTable, classify (decodeFrame (ctrlBytes r.2.1 r.2.2.1)) = r.2.2.2 := by
  decide +kernel

/-- The byte that completes a constant of rule R66: it is disposed of as the table lists. -/
theorem exec_rxByte_constant {b : Byte} {i : Instr} {op c : Byte} {d : Disp} (hrow : (i, op, c, d) ∈ controlTable)
    (hr : Running s) (hw : s.rxbuf ++ [b] = (ctrlBytes op c).1) :
    exec (.rxByte b) s = .next (answer (.disp d) (dispose d (decodeFrame (ctrlBytes op c)) (consume d s))) := by
  have hd : classify (decodeFrame (ctrlBytes op c)) = d := classify_of_controlTable (i, op, c, d) hrow
  exact exec_rxByte_complete hr hw hd

/-- An application frame with room in the queue is pushed and acknowledged (rule R138). -/
theorem dispose_app_of_hasRoom (f : Frame) (h : hasRoom s = true) : dispose .app f s = emit .ackReq (push f s) :=
  if_pos h

/-- An application frame with a full queue is the exception `QueueOverflow` (rules R138, R165). -/
theorem dispose_app_of_full (f : Frame) (h : hasRoom s = false) : dispose .app f s = emit .qovfFault (setQovf s) :=
  if_neg (ne_true_of_eq_false h)

/-- The queue is full when it has as many frames as `QDEPTH` (rule R138). -/
theorem hasRoom_eq_false_of_full {d : Nat} (hd : s.cfg.qdepth = some d) (hq : s.q.length = d) : hasRoom s = false :=
  Bool.eq_false_iff.mpr fun h => ((hasRoom_iff s).1 h d hd).ne hq

/-- A stopped deframer stays in its mode and emits nothing, whatever is invoked short of `RESET`: by induction on the
sequence, each instruction of which keeps the flags and the requests (rules R37, R162). -/
theorem execAll_stopped_frame {is : List Instr} (hs : s.stopped = true) (his : .reset ∉ is)
    (h : execAll is s = .next t) : t.reqs = s.reqs ∧ t.mode = s.mode := by
  induction is generalizing s with
  | nil =>
    obtain rfl : s = t := Host.Outcome.next.inj h
    exact ⟨rfl, rfl⟩
  | cons i is ih =>
    obtain ⟨u, hu, hrest⟩ := execAll_cons_next h
    obtain ⟨haborted, hqovf, -, hreqs⟩ := exec_stopped_frame hs (List.ne_of_not_mem_cons his).symm hu
    have hstopped : u.stopped = true := by rwa [State.stopped, haborted, hqovf]
    obtain ⟨ihreqs, ihmode⟩ := ih hstopped (List.not_mem_of_not_mem_cons his) hrest
    exact ⟨ihreqs.trans hreqs, ihmode.trans (mode_congr haborted hqovf)⟩

/-- Settles O33: the flag that the disposal sets stops the deframer, and a stopped deframer emits nothing. -/
theorem nackDisposal : Obligations.NackDisposal := by
  intro b s hr hw
  refine ⟨_, rfl, ?_, rfl, fun is u his hu => execAll_stopped_frame rfl his hu⟩
  exact exec_rxByte_constant (i := .nack) (op := 0x59) (c := 0xBF) (d := .nack) (by decide) hr hw

/-- Settles O35: both stopped modes drop a byte and a chunk. -/
theorem stoppedDeframerDropsBytes : Obligations.StoppedDeframerDropsBytes := by
  intro s hmode
  have hs : s.stopped = true := stopped_of_mode_ne_run (by obtain h | h := hmode <;> simp [h])
  refine ⟨fun b => ?_, fun bs => ?_⟩
  · rw [exec_rxByte, rxStep_stopped hs]
    rfl
  · rw [exec_rxAppend, receive_stopped bs hs]
    rfl

/-- Settles O28: the byte is stored behind the `rxcnt` bytes already held. -/
theorem rxByteCollects : Obligations.RxByteCollects := by
  intro b s hr hl
  refine ⟨?_, List.getElem?_concat_length⟩
  rw [exec_rxByte, rxStep_store b hr hl]
  rfl

/-- Settles O30: a candidate that fails `Verify` is classified `CRC_FAIL`. -/
theorem crcFailDisposal : Obligations.CrcFailDisposal :=
  fun _ _ _ hr hw hv => exec_rxByte_complete hr hw (classify_of_verifyFrame_eq_false hv)

/-- Settles O31: the constant is the table's row RETX. -/
theorem retxDisposal : Obligations.RetxDisposal :=
  fun _ _ hr hw => exec_rxByte_constant (i := .retx) (op := 0x19) (c := 0x3F) (d := .retx) (by decide) hr hw

/-- Settles O32: the constant is the table's row ACK. -/
theorem ackDisposal : Obligations.AckDisposal :=
  fun _ _ hr hw => exec_rxByte_constant (i := .ack) (op := 0x15) (c := 0x27) (d := .ack) (by decide) hr hw

/-- Settles O34: the candidate is consumed first, which leaves the room in the queue as it is. -/
theorem appDisposal : Obligations.AppDisposal := by
  intro b s w hr hw hd
  rw [exec_rxByte_complete hr hw hd]
  refine ⟨fun hroom => ?_, fun d hdepth hfull => ?_⟩
  · rw [dispose_app_of_hasRoom _ ((hasRoom_iff (consume .app s)).2 hroom)]
    rfl
  · rw [dispose_app_of_full _ (hasRoom_eq_false_of_full (s := consume .app s) hdepth hfull)]
    rfl

/-! ### A chunk is its bytes, however it is cut -/

/-- A disposal does not read what was last returned. -/
theorem dispose_answer (d : Disp) (f : Frame) (r : Result) (s : State) :
    dispose d f (answer r s) = answer r (dispose d f s) := by
  have hroom : hasRoom (answer r s) = hasRoom s := rfl
  rw [dispose_eq, dispose_eq]
  cases d with
  | app =>
    simp only [hroom]
    cases hasRoom s <;> rfl
  | crcFail | retx | ack | nack => rfl

/-- `RX_BYTE` does not read what was last returned. -/
theorem rxStep_answer (b : Byte) (r : Result) (s : State) :
    rxStep b (answer r s) = (answer r (rxStep b s).1, (rxStep b s).2) := by
  obtain ⟨hs, he⟩ | ⟨hs, hl, he⟩ | ⟨hs, hl, f, rfl, he⟩ := rxStep_cases b s <;> rw [he]
  · exact rxStep_stopped hs
  · exact rxStep_store b ((running_iff_stopped_eq_false s).2 hs) hl
  · rw [← dispose_answer]
    exact (if_neg (ne_true_of_eq_false hs)).trans (dif_neg hl)

/-- A chunk does not read what was last returned. -/
theorem receive_answer (bs : List Byte) (r : Result) (s : State) :
    receive bs (answer r s) = (answer r (receive bs s).1, (receive bs s).2) := by
  induction bs generalizing s with
  | nil => rfl
  | cons b bs ih => simp only [receive_cons, rxStep_answer, ih]

/-- Instructions that each give a chunk to the deframer leave together what the joined chunk leaves, up to the form of
the last result (rule R141): by induction on their list, no chunk reading what the one before it returned. -/
theorem execAll_map_eq_receive {α : Type} {instr : α → Instr} {chunk : α → List Byte}
    (h : ∀ a s, ∃ r, exec (instr a) s = .next (answer r (receive (chunk a) s).1)) (as : List α) (s : State) :
    withoutResult (execAll (as.map instr) s) = .next (answer .none (receive (as.flatMap chunk) s).1) := by
  induction as generalizing s with
  | nil => rfl
  | cons a as ih =>
    obtain ⟨r, hr⟩ := h a s
    rw [List.map_cons, execAll, hr]
    simp only [ih, List.flatMap_cons, receive_append, receive_answer, answer_answer]

/-- The dispositions returned by `RX_BYTE` are those it records (rule R34). -/
theorem rxStep_disps (b : Byte) (s : State) : (rxStep b s).1.disps = s.disps ++ (rxStep b s).2.dispositions := by
  obtain ⟨-, h⟩ | ⟨-, -, h⟩ | ⟨-, -, f, -, h⟩ := rxStep_cases b s <;> rw [h]
  · simp [Result.dispositions]
  · simp [Result.dispositions]
  · exact (dispose_frame _ f _).2

/-- The dispositions returned for a chunk are those it records (rules R34, R140). -/
theorem receive_disps (bs : List Byte) (s : State) : (receive bs s).1.disps = s.disps ++ (receive bs s).2 := by
  induction bs generalizing s with
  | nil => simp
  | cons b bs ih => rw [receive_cons, ih, rxStep_disps, List.append_assoc]

/-- Settles O36: the chunk is the join of its bytes. -/
theorem rxAppendIsItsExpansion : Obligations.RxAppendIsItsExpansion := by
  refine fun bs s => ⟨deliver bs s, (receive bs s).2, rfl, rfl, receive_disps bs s, ?_, ?_⟩
  · rw [execAll_map_eq_receive (chunk := fun b => [b]) (fun b s => ⟨_, exec_rxByte b s⟩), List.flatMap_singleton']
    rfl
  · rintro rfl
    rfl

/-! ### Frame by frame from a boundary -/

/-- The deframer does not write the parameter (rule R6). -/
theorem receive_cfg (bs : List Byte) (s : State) : (receive bs s).1.cfg = s.cfg :=
  receive_preserves (P := fun u => u.cfg = s.cfg) (fun b u hu => (rxStep_frame b u).2.1.trans hu) bs rfl

/-- With an unbounded queue only a NACK stops the deframer (rules R27, R137). -/
theorem running_dispose {d : Disp} (f : Frame) (hr : Running s) (hq : s.cfg.qdepth = none) (hd : d ≠ .nack) :
    Running (dispose d f s) := by
  cases d with
  | nack => exact absurd rfl hd
  | app => exact dispose_app_of_hasRoom f ((hasRoom_iff s).2 (by simp [hq])) ▸ hr
  | crcFail | retx | ack => exact hr

/-- A frame other than NACK, from a frame boundary to an unbounded queue, ends at a frame boundary. -/
theorem atBoundary_receive_frame {w : Bytes 18} (hb : AtBoundary s) (hq : s.cfg.qdepth = none)
    (hw : classify (decodeFrame w) ≠ .nack) : AtBoundary (receive w.1 s).1 := by
  rw [receive_frame w hb]
  exact ⟨running_dispose _ hb.1 hq hw, (dispose_frame _ _ _).1⟩

/-- With an unbounded queue a chunk none of whose candidates is a NACK does not stop the deframer: by induction on the
number of candidates. -/
theorem running_receive_of_ne_nack {n : Nat} {bs : List Byte} (hn : bs.length / 18 = n) (hb : AtBoundary s)
    (hq : s.cfg.qdepth = none) (hnack : ∀ j, j < n → classify (decodeFrame (candidateAt bs j)) ≠ .nack) :
    Running (receive bs s).1 := by
  induction n generalizing bs s with
  | zero =>
    rw [receive_collects bs hb.1 (by rw [hb.2, List.length_nil]; omega)]
    exact hb.1
  | succ n ih =>
    obtain ⟨w, rest, rfl⟩ := exists_frame_append (bs := bs) (by omega)
    have hrest : rest.length / 18 = n := by
      rw [List.length_append, w.2] at hn
      omega
    have hfirst : classify (decodeFrame w) ≠ .nack := by
      simpa only [candidateAt_zero] using hnack 0 n.succ_pos
    have hlater : ∀ j, j < n → classify (decodeFrame (candidateAt rest j)) ≠ .nack := fun j hj => by
      simpa only [candidateAt_succ] using hnack (j + 1) (Nat.succ_lt_succ hj)
    rw [receive_append]
    exact ih hrest (atBoundary_receive_frame hb hq hfirst) ((congrArg _ (receive_cfg _ s)).trans hq) hlater

/-- Settles O37: a cut chunk is the join of its parts; of `18k + r` bytes the candidates are the first `k` frames, and
the last `r` bytes are held. -/
theorem streamingEquivalence : Obligations.StreamingEquivalence := by
  refine ⟨fun chunks s => ?_, fun bs k r s hb hlen hr => ⟨deliver bs s, rfl, fun ht => ?_, fun hq hnack => ?_⟩⟩
  · rw [execAll_map_eq_receive (chunk := id) (fun bs s => ⟨_, exec_rxAppend bs s⟩), List.flatMap_id]
    rfl
  · obtain ⟨hdisps, hbuf⟩ := receive_cuts_candidates (n := k) (by omega) hb ht
    simp [deliver, hdisps, hbuf, hlen]
  · exact running_receive_of_ne_nack (by omega) hb hq hnack

/-- At a frame boundary a frame with a wrong crc is discarded, and a resend asked for (rule R134). -/
theorem receive_bad_frame {w : Bytes 18} (hb : AtBoundary s) (hw : verifyFrame (decodeFrame w) = false) :
    receive w.1 s =
      ({ s with streamPos := s.streamPos + 18, reqs := s.reqs ++ [.retxReq], disps := s.disps ++ [.crcFail] },
        [.crcFail]) := by
  rw [receive_frame w hb, classify_of_verifyFrame_eq_false hw]
  simp [dispose_eq, consume, hb.2]

/-- At a frame boundary an application frame with room in the queue is queued and acknowledged (rule R138). -/
theorem receive_app_frame {f : Frame} (hb : AtBoundary s) (hroom : hasRoom s = true) (hf : classify f = .app) :
    receive (ser f).1 s =
      ({ s with
          q := s.q ++ [f], streamPos := s.streamPos + 18, reqs := s.reqs ++ [.ackReq], disps := s.disps ++ [.app] },
        [.app]) := by
  rw [receive_frame (ser f) hb, decodeFrame_ser, hf, dispose_app_of_hasRoom f ?room]
  case room => exact hroom
  simp [emit, push, consume, hb.2]

/-- Settles O43: the bad frame leaves a frame boundary and the queue as it was, so the valid frame finds room. -/
theorem oneRetxPerBadFrame : Obligations.OneRetxPerBadFrame := by
  intro bad f s hb hroom hbad hf
  rw [exec_rxAppend, receive_append, receive_bad_frame hb hbad, receive_app_frame ?boundary ?room hf]
  case boundary => exact hb
  case room => exact hroom
  simp [answer]

/-! ### `DEQ` -/

/-- `DEQ` on an empty queue only answers (rule R142). -/
theorem exec_deq_nil (hq : s.q = []) : exec .deq s = .next (answer .empty s) := by
  change execDeq s = _
  rw [execDeq, hq]

/-- `DEQ` takes the oldest frame and returns it (rule R142). -/
theorem exec_deq_cons {f : Frame} {fs : List Frame} (hq : s.q = f :: fs) :
    exec .deq s = .next (answer (.frame f) { s with q := fs, deqCount := s.deqCount + 1 }) := by
  change execDeq s = _
  rw [execDeq, hq]

/-- Settles O41: the two cases of the queue. -/
theorem deqTakesTheOldestFrame : Obligations.DeqTakesTheOldestFrame :=
  fun _ => ⟨exec_deq_nil, fun _ _ => exec_deq_cons⟩

end Sys2Proof.Proofs
end

section
/-! Proofs of the statements of 60_exceptions.md: when the queue overflows, and what `QueueOverflow` does. -/

namespace Sys2Proof.Proofs

open Sys2Proof.Machine Sys2Proof.Safety

variable {i : Instr} {s t : State}

/-- `aborted` clear and `qovf` set is mode `FAULT` (rule R37). -/
theorem mode_eq_fault (ha : s.aborted = false) (hq : s.qovf = true) : s.mode = .fault :=
  (mode_eq_fault_iff (by simp [ha])).2 hq

/-- A queue without room is finite and holds at least `QDEPTH` frames (rules R27, R138). -/
theorem hasRoom_eq_false_iff (s : State) : hasRoom s = false ↔ ∃ d, s.cfg.qdepth = some d ∧ d ≤ s.q.length := by
  rw [← Bool.not_eq_true, hasRoom_iff]
  push Not
  rfl

/-- A disposal that sets `qovf` finds the queue without room, and leaves it so (rules R138, R165). -/
theorem hasRoom_dispose_of_qovf {d : Disp} {f : Frame} (hs : s.qovf = false) (h : (dispose d f s).qovf = true) :
    hasRoom (dispose d f s) = false := by
  cases d with
  | app =>
    cases hroom : hasRoom s with
    | true =>
      rw [dispose_app_of_hasRoom f hroom] at h
      exact absurd h (ne_true_of_eq_false hs)
    | false =>
      rw [dispose_app_of_full f hroom]
      exact hroom
  | crcFail | retx | ack | nack => exact absurd h (ne_true_of_eq_false hs)

/-- A byte keeps this: where `qovf` is set, the queue has no room. -/
theorem rxStep_preserves_full_of_qovf (b : Byte) (s : State) (h : s.qovf = true → hasRoom s = false) :
    (rxStep b s).1.qovf = true → hasRoom (rxStep b s).1 = false := by
  obtain ⟨-, he⟩ | ⟨-, -, he⟩ | ⟨hs, -, f, -, he⟩ := rxStep_cases b s <;> rw [he]
  · exact h
  · exact h
  · exact hasRoom_dispose_of_qovf (s := consume _ s) ((stopped_eq_false_iff s).1 hs).2

/-- Only a receiving instruction sets `qovf`, and only on a queue without room: by induction on the bytes received. -/
theorem exec_sets_qovf (he : exec i s = .next t) (hs : s.qovf = false) (ht : t.qovf = true) :
    receives i = true ∧ hasRoom t = false := by
  obtain ⟨-, rfl⟩ | ⟨hi, bs, r, -, rfl⟩ | ⟨-, f, fs, -, rfl⟩ | ⟨-, -, r, c, -, rfl⟩ := exec_next_cases he
  · cases ht
  · have hstart : s.qovf = true → hasRoom s = false := fun h => absurd h (ne_true_of_eq_false hs)
    exact ⟨hi, receive_preserves rxStep_preserves_full_of_qovf bs hstart ht⟩
  · exact absurd ht (ne_true_of_eq_false hs)
  · exact absurd ht (ne_true_of_eq_false hs)

/-- An instruction leaves the parameter as it is (rule R6). -/
theorem exec_cfg (he : exec i s = .next t) : t.cfg = s.cfg := by
  obtain ⟨-, rfl⟩ | ⟨-, bs, r, -, rfl⟩ | ⟨-, f, fs, -, rfl⟩ | ⟨-, -, r, c, -, rfl⟩ := exec_next_cases he
  · rfl
  · exact receive_cfg bs s
  · rfl
  · rfl

/-- Settles O46: the disposal of an application frame with a full queue leaves mode `FAULT`, which drops every byte;
and `qovf` is set on a queue without room only, which is a finite one. -/
theorem queueOverflowStopsTheDeframer : Obligations.QueueOverflowStopsTheDeframer := by
  refine ⟨fun b s w d hr hw happ hdepth hfull => ?_, fun i s t he hs ht => ?_⟩
  · refine ⟨_, (appDisposal b s w hr hw happ).2 d hdepth hfull, rfl, rfl, ?mode, hr.1, rfl, rfl, ?later⟩
    case mode => exact mode_eq_fault hr.1 rfl
    case later =>
      refine (stoppedDeframerDropsBytes _ (.inr ?_)).1
      exact mode_eq_fault hr.1 rfl
  · obtain ⟨hi, hroom⟩ := exec_sets_qovf he hs ht
    obtain ⟨d, hdepth, hfull⟩ := (hasRoom_eq_false_iff t).1 hroom
    exact ⟨hi, d, exec_cfg he ▸ hdepth, hfull⟩

end Sys2Proof.Proofs
end

section
/-! Proofs of the statements of 70_reset_and_hazards.md: data that looks like control. -/

namespace Sys2Proof.Proofs

open Sys2Proof.Machine Sys2Proof.Safety

/-- 0xFF bytes at the end of a payload cannot be told from its padding (rules R62, R111). -/
theorem pad_append_replicate {p : List Byte} {k : Nat} (h : (p ++ List.replicate k 0xFF).length ≤ 16)
    (hp : p.length ≤ 16) : pad (p ++ List.replicate k 0xFF) h = pad p hp := by
  have hcount : k + (16 - (p ++ List.replicate k (0xFF : Byte)).length) = 16 - p.length := by
    rw [List.length_append, List.length_replicate] at h ⊢
    omega
  apply Subtype.ext
  rw [pad_val, pad_val, List.append_assoc, List.replicate_append_replicate, hcount]

/-- `Encode` sees a payload with its padding only (rules R62, R112). -/
theorem encodeFrame_append_replicate {p : List Byte} {k : Nat} (l : Byte)
    (h : (p ++ List.replicate k 0xFF).length ≤ 16) (hp : p.length ≤ 16) :
    encodeFrame l (p ++ List.replicate k 0xFF) h = encodeFrame l p hp := by
  rw [encodeFrame_eq_ser, encodeFrame_eq_ser, encodedFrame, encodedFrame, pad_append_replicate h hp]

/-- The first byte of a payload operand is the first of the bytes given (rule R71). -/
theorem getElem?_zero_of_payloadOperand {n : BitVec 5} {p : Bytes 16} {b : Byte} {bs : List Byte}
    (hp : payloadOperand n p = b :: bs) : p.1[0]? = some b := by
  rw [← List.take_append_drop n.toNat p.1, ← payloadOperand, hp]
  rfl

/-- `ENCODE` of a byte and 0xFF bytes behind it is `ENCODE` of the one byte (rule R203). -/
theorem exec_encode_cons_replicate {n : BitVec 5} {p : Bytes 16} {b : Byte} {k : Nat} (hn : n.toNat ≤ 16)
    (hp : payloadOperand n p = b :: List.replicate k 0xFF) (l : Byte) (s : State) :
    exec (.encode l n p) s = exec (.encode l 1 p) s := by
  have hone : payloadOperand 1 p = [b] := payloadOperand_one (getElem?_zero_of_payloadOperand hp)
  have happend : payloadOperand n p = [b] ++ List.replicate k 0xFF := hp
  rw [exec_encode hn, exec_encode (by decide), encodeFrame_congr hone, encodeFrame_congr happend,
    encodeFrame_append_replicate]

/-- Settles O27: the 0xFF of the chunk is padding, so its frame is that of `CTRL op`, a constant of rule R66 for each
listed opcode; and 0xFF bytes behind a one-byte payload are padding too. -/
theorem dataCanLookLikeControl : Obligations.DataCanLookLikeControl := by
  refine ⟨fun op p s hp => ?_, fun l b n p s _ hn hp => exec_encode_cons_replicate hn hp l s⟩
  obtain ⟨w, -, hctrl, hone, -, -, hconstant⟩ := ctrlBuildsTheControlFrame op s
  have hpayload : payloadOperand 2 p = op :: List.replicate 1 0xFF := hp
  have hencode : exec (.encode 1 2 p) s = exec (.ctrl op) s :=
    (exec_encode_cons_replicate (by decide) hpayload 1 s).trans (hone p (getElem?_zero_of_payloadOperand hpayload))
  have hclassify (r) (hr : r ∈ controlTable) (hop : op = r.2.1) : classify (decodeFrame w) = r.2.2.2 := by
    rw [hconstant r hr hop.symm, classify_of_controlTable r hr]
  exact ⟨w, hencode, hencode.trans hctrl, hclassify (.retx, 0x19, 0x3F, .retx) (by decide),
    hclassify (.ack, 0x15, 0x27, .ack) (by decide), hclassify (.nack, 0x59, 0xBF, .nack) (by decide)⟩

end Sys2Proof.Proofs
end

section
/-! Proofs of the statements about the whole machine (10_state.md, 20_memory.md, 60_exceptions.md,
70_reset_and_hazards.md): the invariants and the counts, what each instruction may write, what the deframer emits. -/

namespace Sys2Proof.Proofs

open Sys2Proof.Machine Sys2Proof.Safety

variable {i : Instr} {s t : State}

/-! ### The invariants and the counts -/

/-- Settles O55: the step lemma of the invariants. -/
theorem invariantsKeptByEveryStep : Obligations.InvariantsKeptByEveryStep :=
  fun _ _ => step_preserves_blockInv

/-- Settles O56: the step lemma of the counts. -/
theorem countsKeptByEveryStep : Obligations.CountsKeptByEveryStep :=
  fun _ _ => step_preserves_counts

/-- Settles O54: the base case of both. -/
theorem invariantsHoldAtReset : Obligations.InvariantsHoldAtReset :=
  fun c p => ⟨blockInv_reset c p, counts_reset c p⟩

/-! ### The step -/

/-- A step runs the instruction that the next invocation decodes to (rules R8, R25). -/
theorem step_of_decode_ok {x : Input} {rest : List Input} (hp : s.pending = x :: rest) (hd : decode x = .ok i) :
    step s = exec i { s with pending := rest } := by
  simp only [step, hp, hd]

/-- A step with nothing invoked does nothing (rule R8). -/
theorem step_of_pending_nil (hp : s.pending = []) : step s = .next s := by
  simp only [step, hp]

/-- A step refuses what is no instruction. -/
theorem step_of_decode_error {x : Input} {rest : List Input} {e : DecodeError} (hp : s.pending = x :: rest)
    (hd : decode x = .error e) : step s = .refused (.undecodable e) := by
  simp only [step, hp, hd]

/-- What `decodeTableWord` reads is what the decoder reads from the word's input. -/
theorem decode_tableInput {nbits w : Nat} (h : decodeTableWord nbits w = some i) :
    decode (tableInput nbits w) = .ok i := by
  unfold decodeTableWord at h
  split at h
  next j hj => exact hj.trans (congrArg _ (Option.some.inj h))
  next => cases h

/-- Settles O6: the three cases of `step`. -/
theorem stepRunsTheDecodedInstruction : Obligations.StepRunsTheDecodedInstruction :=
  ⟨fun _ _ _ _ => step_of_decode_ok, fun _ => step_of_pending_nil, fun _ _ _ _ => step_of_decode_error⟩

/-- Settles O7: the placed word is the first invocation, and the others are those that were there. -/
theorem placedWordRunsNext : Obligations.PlacedWordRunsNext :=
  fun s nbits w _ h => step_of_decode_ok (s := s.withFetchWord nbits w) rfl (decode_tableInput h)

/-- No step faults: there is no reason to. -/
theorem step_ne_fault (s : State) (r : Fault) : step s ≠ .fault r := nomatch r

/-- A receiving instruction completes in every state (rule R198). -/
theorem exec_completes_of_receives (hi : receives i = true) (s : State) : ∃ t, exec i s = .next t := by
  obtain ⟨_, _, -, he⟩ := exec_of_receives hi s
  exact ⟨_, he⟩

/-- `DEQ` completes in every state (rules R142, R198). -/
theorem exec_deq_completes (s : State) : ∃ t, exec .deq s = .next t := by
  cases hq : s.q with
  | nil => exact ⟨_, exec_deq_nil hq⟩
  | cons f fs => exact ⟨_, exec_deq_cons hq⟩

/-- Settles O53: what receives and `DEQ` complete in every state, `ENCODE` with `n` in its range. -/
theorem everyOperationCompletes : Obligations.EveryOperationCompletes := by
  refine ⟨fun i s hwf hres => ?_, step_ne_fault⟩
  cases hi : receives i with
  | true => exact exec_completes_of_receives hi s
  | false =>
    cases i with
    | encode l n p => exact ⟨_, exec_encode (of_decide_eq_true hwf) l p s⟩
    | deq => exact exec_deq_completes s
    | reset | crcClr | crcUpd | crc8 | decode | verify | ctrl => exact ⟨_, rfl⟩
    | reserved8 | reserved9 | reservedA | reservedB | reservedC | reservedD | reservedE | reservedF => cases hres
    | _ => cases hi

/-! ### What each instruction may write -/

/-- The deframer does not write the environment's invocations and the count of `DEQ` (rule R38). -/
theorem receive_frame_fields (bs : List Byte) (s : State) :
    (receive bs s).1.pending = s.pending ∧ (receive bs s).1.deqCount = s.deqCount := by
  refine receive_preserves (P := fun u => u.pending = s.pending ∧ u.deqCount = s.deqCount) (fun b u hu => ?_) bs
    ⟨rfl, rfl⟩
  obtain ⟨-, -, hpending, hdeq, -⟩ := rxStep_frame b u
  exact ⟨hpending.trans hu.1, hdeq.trans hu.2⟩

/-- No instruction writes the environment's invocations. -/
theorem exec_pending (he : exec i s = .next t) : t.pending = s.pending := by
  obtain ⟨-, rfl⟩ | ⟨-, bs, r, -, rfl⟩ | ⟨-, f, fs, -, rfl⟩ | ⟨-, -, r, c, -, rfl⟩ := exec_next_cases he
  · rfl
  · exact (receive_frame_fields bs s).1
  · rfl
  · rfl

/-- What neither receives nor resets takes a frame from the queue, or answers and at most writes `crc` (R38). -/
theorem exec_not_receives_cases (hi : i ≠ .reset) (hrx : receives i = false) (he : exec i s = .next t) :
    (i = .deq ∧ ∃ f fs, t = answer (.frame f) { s with q := fs, deqCount := s.deqCount + 1 }) ∨
      ∃ r c, t = answer r (setCrc c s) := by
  obtain ⟨rfl, -⟩ | ⟨hrx', -⟩ | ⟨hdeq, f, fs, -, ht⟩ | ⟨-, -, r, c, -, ht⟩ := exec_next_cases he
  · exact absurd rfl hi
  · exact absurd hrx' (ne_true_of_eq_false hrx)
  · exact .inl ⟨hdeq, f, fs, ht⟩
  · exact .inr ⟨r, c, ht⟩

/-- What neither receives nor resets leaves the deframer and the histories alone (rule R38). -/
theorem exec_not_receives_frame (hi : i ≠ .reset) (hrx : receives i = false) (he : exec i s = .next t) :
    t.rxbuf = s.rxbuf ∧ t.aborted = s.aborted ∧ t.qovf = s.qovf ∧ t.reqs = s.reqs ∧ t.disps = s.disps ∧
      t.streamPos = s.streamPos := by
  obtain ⟨-, f, fs, rfl⟩ | ⟨r, c, rfl⟩ := exec_not_receives_cases hi hrx he
  · simp
  · simp

/-- What is no `DEQ` besides leaves the queue alone too (rule R38). -/
theorem exec_not_receives_queue (hi : i ≠ .reset) (hrx : receives i = false) (hdeq : i ≠ .deq)
    (he : exec i s = .next t) : t.q = s.q ∧ t.deqCount = s.deqCount := by
  obtain ⟨h, -⟩ | ⟨r, c, rfl⟩ := exec_not_receives_cases hi hrx he
  · exact absurd h hdeq
  · exact ⟨rfl, rfl⟩

/-- Settles O52: the write set of each field. -/
theorem writeSets : Obligations.WriteSets := fun _ _ _ he =>
  ⟨fun hi => exec_preserves_crc hi he, fun hi hrx => exec_not_receives_frame hi hrx he,
    fun hi hrx hdeq => exec_not_receives_queue hi hrx hdeq he, exec_cfg he, exec_pending he⟩

/-- Settles O49: a stopped deframer keeps its mode but for `RESET`. -/
theorem resetClearsTheBlock : Obligations.ResetClearsTheBlock := by
  refine ⟨exec_reset, fun i s t hmode hi he => ?_⟩
  have hne : s.mode ≠ .run := by obtain h | h := hmode <;> simp [h]
  obtain ⟨ha, hq, -, -⟩ := exec_stopped_frame (stopped_of_mode_ne_run hne) hi he
  exact (mode_congr ha hq).trans_ne hne

/-- Settles O51: at most 17 bytes are held, which five bits can show. -/
theorem statusShowsTheState : Obligations.StatusShowsTheState := by
  refine ⟨fun s h => ⟨?_, rfl, rfl, ?_, rfl, rfl, h.unbounded⟩, rfl⟩
  · have hmax : s.rxcnt < 2 ^ 5 := h.collected.trans_lt (by decide)
    exact Nat.mod_eq_of_lt hmax
  · rw [List.length_eq_zero_iff]
    exact List.isEmpty_iff

/-! ### Who reads and writes the register `crc` -/

/-- A disposal neither reads nor writes `crc` (rule R21). -/
theorem dispose_setCrc (d : Disp) (f : Frame) (c : Byte) (s : State) :
    dispose d f (setCrc c s) = setCrc c (dispose d f s) := by
  have hroom : hasRoom (setCrc c s) = hasRoom s := rfl
  rw [dispose_eq, dispose_eq]
  cases d with
  | app =>
    simp only [hroom]
    cases hasRoom s <;> rfl
  | crcFail | retx | ack | nack => rfl

/-- `RX_BYTE` neither reads nor writes `crc` (rule R21). -/
theorem rxStep_setCrc (b c : Byte) (s : State) : rxStep b (setCrc c s) = (setCrc c (rxStep b s).1, (rxStep b s).2) := by
  obtain ⟨hs, he⟩ | ⟨hs, hl, he⟩ | ⟨hs, hl, f, rfl, he⟩ := rxStep_cases b s <;> rw [he]
  · exact rxStep_stopped hs
  · exact rxStep_store b ((running_iff_stopped_eq_false s).2 hs) hl
  · rw [← dispose_setCrc]
    exact (if_neg (ne_true_of_eq_false hs)).trans (dif_neg hl)

/-- A chunk neither reads nor writes `crc` (rule R21). -/
theorem receive_setCrc (bs : List Byte) (c : Byte) (s : State) :
    receive bs (setCrc c s) = (setCrc c (receive bs s).1, (receive bs s).2) := by
  induction bs generalizing s with
  | nil => rfl
  | cons b bs ih => simp only [receive_cons, rxStep_setCrc, ih]

/-- A delivered chunk neither reads nor writes `crc` (rule R21). -/
theorem deliver_setCrc (bs : List Byte) (c : Byte) (s : State) : deliver bs (setCrc c s) = setCrc c (deliver bs s) := by
  rw [deliver, receive_setCrc]
  rfl

/-- `DEQ` neither reads nor writes `crc` (rule R21). -/
theorem exec_deq_setCrc (c : Byte) (s : State) : exec .deq (setCrc c s) = mapNext (setCrc c) (exec .deq s) := by
  cases hq : s.q with
  | nil => rw [exec_deq_nil hq, exec_deq_nil (s := setCrc c s) hq]; rfl
  | cons f fs => rw [exec_deq_cons hq, exec_deq_cons (s := setCrc c s) hq]; rfl

/-- `ENCODE` neither reads nor writes `crc` (rule R21). -/
theorem exec_encode_setCrc (l : Byte) (n : BitVec 5) (p : Bytes 16) (c : Byte) (s : State) :
    exec (.encode l n p) (setCrc c s) = mapNext (setCrc c) (exec (.encode l n p) s) := by
  by_cases hn : n.toNat ≤ 16
  · rw [exec_encode hn, exec_encode hn]; rfl
  · rw [exec_encode_refused (not_le.mp hn), exec_encode_refused (not_le.mp hn)]; rfl

/-- Settles O19: the deframer's chunk and `DEQ` leave `crc` alone, and so does the codec. -/
theorem crcRegisterIsPrivate : Obligations.CrcRegisterIsPrivate := by
  intro i c s hi
  cases i with
  | reset | crcClr | crcUpd | crc8 => cases hi
  | encode l n p => exact exec_encode_setCrc l n p c s
  | deq => exact exec_deq_setCrc c s
  | rxByte b => rw [exec_rxByte, rxStep_setCrc]; rfl
  | decode | verify | ctrl => rfl
  | reserved8 | reserved9 | reservedA | reservedB | reservedC | reservedD | reservedE | reservedF => rfl
  | rxAppend | frame | ack | retx | syncObserved | fwUpdateReq | fwUpdateRes | deviceIdReq | deviceIdRes | fwLengthReq
  | fwLengthRes | readyForData | updateSuccessful | nack => exact congrArg _ (deliver_setCrc _ c s)

/-! ### `CRC8` and the codec -/

/-- A `CRC_UPD` for each byte folds the bytes into `crc`, and returns nothing (rule R97): by induction on them. -/
theorem execAll_map_crcUpd (bs : List Byte) (s : State) :
    execAll (bs.map .crcUpd) (answer .none s) = .next (answer .none (setCrc (bs.foldl crcByte s.crc) s)) := by
  induction bs generalizing s with
  | nil => rfl
  | cons b bs ih => exact ih (setCrc (crcByte s.crc b) s)

/-- Settles O16: the bytes are folded in from the initial value that `CRC_CLR` leaves. -/
theorem crc8IsItsExpansion : Obligations.Crc8IsItsExpansion :=
  fun bs s => ⟨rfl, _, execAll_map_crcUpd bs (setCrc Config.crcInit s), rfl⟩

/-- Settles O26: the result of each codec operation, or the refusal, is written without the state. -/
theorem codecIsPure : Obligations.CodecIsPure := by
  rintro i (⟨l, n, p, rfl⟩ | ⟨w, rfl⟩ | ⟨f, rfl⟩ | ⟨o, rfl⟩)
  · by_cases hn : n.toNat ≤ 16
    · exact .inl ⟨_, exec_encode hn l p⟩
    · exact .inr ⟨_, exec_encode_refused (not_le.mp hn) l p⟩
  all_goals exact .inl ⟨_, fun _ => rfl⟩

/-! ### Requests and dispositions -/

/-- The request that a disposal emits, if any; for `APP` it depends on the room in the queue (rule R167). -/
def requestOf (room : Bool) : Disp → Option Req
  | .crcFail => some .retxReq
  | .retx => some .resendReq
  | .ack => none
  | .nack => some .peerAbort
  | .app => some (if room then .ackReq else .qovfFault)

/-- A disposal emits that request and no other (rules R134 to R138, R165). -/
theorem dispose_reqs (d : Disp) (f : Frame) (s : State) :
    (dispose d f s).reqs = s.reqs ++ (requestOf (hasRoom s) d).toList := by
  rw [dispose_eq]
  cases d with
  | app => cases hasRoom s <;> rfl
  | ack => exact (List.append_nil _).symm
  | crcFail | retx | nack => rfl

/-- A completed candidate emits the request of its disposition (rules R132, R167). -/
theorem exec_rxByte_complete_reqs {b : Byte} {w : Bytes 18} (he : exec (.rxByte b) s = .next t) (hr : Running s)
    (hw : s.rxbuf ++ [b] = w.1) :
    t.reqs = s.reqs ++ (requestOf (hasRoom s) (classify (decodeFrame w))).toList := by
  obtain rfl := Host.Outcome.next.inj ((exec_rxByte_complete hr hw rfl).symm.trans he)
  exact dispose_reqs _ _ _

/-- A byte that completes no candidate emits nothing (rules R131, R139). -/
theorem rxStep_reqs_of_not_complete (b : Byte) (h : ¬ Running s ∨ s.rxcnt < 17) : (rxStep b s).1.reqs = s.reqs := by
  obtain ⟨-, he⟩ | ⟨-, -, he⟩ | ⟨hs, hl, -⟩ := rxStep_cases b s
  · rw [he, dropByte_reqs]
  · rw [he, store_reqs]
  · exact absurd h (not_or.mpr ⟨not_not_intro ((running_iff_stopped_eq_false s).2 hs), hl⟩)

/-- Settles O45: the two cases of `RX_BYTE`; the instructions that do not receive emit nothing. -/
theorem requestsFollowDispositions : Obligations.RequestsFollowDispositions := by
  refine ⟨fun b s t he h => ?_, fun b s t w he hr hw => ?_, fun i s t hrx hi he => ?_⟩
  · obtain rfl := Host.Outcome.next.inj ((exec_rxByte b s).symm.trans he)
    exact rxStep_reqs_of_not_complete b h
  · rw [exec_rxByte_complete_reqs he hr hw]
    cases classify (decodeFrame w) with
    | app => cases hasRoom s <;> rfl
    | crcFail | retx | ack | nack => rfl
  · obtain ⟨-, -, -, hreqs, -⟩ := exec_not_receives_frame hi hrx he
    exact hreqs

/-- Settles O29: the candidate is consumed, and its disposal emits at most one request. -/
theorem rxByteCompletesACandidate : Obligations.RxByteCompletesACandidate := by
  intro b s w hr hw
  have he := exec_rxByte_complete hr hw rfl
  obtain ⟨hbuf, hdisps⟩ := dispose_frame (classify (decodeFrame w)) (decodeFrame w) (consume _ s)
  refine ⟨_, he, congrArg List.length hbuf, rfl, hdisps, ?_, exec_preserves_crc rfl he⟩
  rw [exec_rxByte_complete_reqs he hr hw]
  cases requestOf (hasRoom s) (classify (decodeFrame w)) with
  | none => exact .inl (List.append_nil _)
  | some r => exact .inr ⟨r, rfl⟩

/-- A byte only appends to the requests (rules R34, R170). -/
theorem reqs_prefix_rxStep (b : Byte) (s : State) : s.reqs <+: (rxStep b s).1.reqs := by
  obtain ⟨-, he⟩ | ⟨-, -, he⟩ | ⟨-, -, f, -, he⟩ := rxStep_cases b s <;> rw [he]
  · exact List.prefix_rfl
  · exact List.prefix_rfl
  · exact ⟨_, (dispose_reqs _ f (consume _ s)).symm⟩

/-- A chunk only appends to the requests (rules R34, R170). -/
theorem reqs_prefix_receive (bs : List Byte) (s : State) : s.reqs <+: (receive bs s).1.reqs :=
  receive_preserves (P := fun u => s.reqs <+: u.reqs) (fun b u hu => hu.trans (reqs_prefix_rxStep b u)) bs
    List.prefix_rfl

/-- Settles O48: received bytes append to both histories, and nothing else writes them. -/
theorem outputHistoryOnlyGrows : Obligations.OutputHistoryOnlyGrows := by
  intro i s t hi he
  cases hrx : receives i with
  | true =>
    obtain ⟨bs, r, -, hbs⟩ := exec_of_receives hrx s
    obtain rfl := Host.Outcome.next.inj (hbs.symm.trans he)
    obtain ⟨rs, hrs⟩ := reqs_prefix_receive bs s
    exact ⟨⟨rs, hrs.symm⟩, _, receive_disps bs s⟩
  | false =>
    obtain ⟨-, -, -, hreqs, hdisps, -⟩ := exec_not_receives_frame hi hrx he
    exact ⟨⟨[], by simp [hreqs]⟩, [], by simp [hdisps]⟩

/-! ### The stream position -/

/-- What does not receive gives no byte (rules R41, R140). -/
theorem bytesGiven_eq_zero (hi : receives i = false) : bytesGiven i = 0 := by
  cases i with
  | rxByte | rxAppend | frame | ack | retx | syncObserved | fwUpdateReq | fwUpdateRes | deviceIdReq | deviceIdRes
  | fwLengthReq | fwLengthRes | readyForData | updateSuccessful | nack => cases hi
  | _ => rfl

/-- Every instruction but `RESET` advances the position by the bytes it gives (rule R31 (b)). -/
theorem exec_streamPos (hi : i ≠ .reset) (he : exec i s = .next t) : t.streamPos = s.streamPos + bytesGiven i := by
  cases hrx : receives i with
  | true =>
    obtain ⟨bs, r, hlen, hbs⟩ := exec_of_receives hrx s
    obtain rfl := Host.Outcome.next.inj (hbs.symm.trans he)
    exact hlen ▸ receive_streamPos bs s
  | false =>
    obtain ⟨-, -, -, -, -, hpos⟩ := exec_not_receives_frame hi hrx he
    rw [hpos, bytesGiven_eq_zero hrx, Nat.add_zero]

/-- Settles O58: the invariants bind `rxcnt` to the position. -/
theorem streamPositionCountsTheBytesGiven : Obligations.StreamPositionCountsTheBytesGiven := by
  refine ⟨fun _ _ _ => exec_streamPos, fun s => ⟨_, exec_reset s, rfl⟩, fun bs s t h he ht => ?_⟩
  rw [(exec_preserves_blockInv h he).position ht, exec_streamPos (i := .rxAppend bs) nofun he, bytesGiven]

/-! ### Frames in order -/

/-- Settles O44: a frame's arrival is the chunk of its bytes, at a frame boundary one candidate. -/
theorem frameArrivalIsItsBytes : Obligations.FrameArrivalIsItsBytes := by
  refine fun w s => ⟨rfl, deliver w.1 s, rfl, fun hb => ⟨?_, ?_, receive_crc w.1 s⟩⟩
  · rw [deliver, answer_disps, receive_disps, receive_frame w hb]
  · rw [deliver, answer_rxbuf, receive_frame w hb]
    exact (dispose_frame _ _ _).1

/-- Application frames from a frame boundary to an unbounded queue: the whole next state, by induction on the frames,
each of which leaves a frame boundary. -/
theorem receive_app_frames (fs : List Frame) (hb : AtBoundary s) (hq : s.cfg.qdepth = none)
    (hfs : ∀ f ∈ fs, classify f = .app) :
    (receive (fs.flatMap fun f => (ser f).1) s).1 = { s with
      q := s.q ++ fs, streamPos := s.streamPos + 18 * fs.length
      reqs := s.reqs ++ List.replicate fs.length .ackReq, disps := s.disps ++ List.replicate fs.length .app } := by
  induction fs generalizing s with
  | nil => simp
  | cons f fs ih =>
    obtain ⟨hf, hfs⟩ := List.forall_mem_cons.mp hfs
    have hroom : hasRoom s = true := (hasRoom_iff s).2 (by simp [hq])
    rw [List.flatMap_cons, receive_append, receive_app_frame hb hroom hf, ih ?boundary ?unbounded hfs]
    case boundary => exact hb
    case unbounded => exact hq
    simp [List.replicate_succ, Nat.mul_succ, Nat.add_assoc, Nat.add_comm 18]

/-- Settles O40: the whole next state after the frames. -/
theorem framesAreQueuedInOrder : Obligations.FramesAreQueuedInOrder := by
  intro fs s hb hq hfs
  refine ⟨_, exec_rxAppend _ s, ?_⟩
  rw [receive_app_frames fs hb hq hfs]
  exact ⟨rfl, hb, rfl, rfl⟩

/-- `k` frames are taken from the head of a queue that has as many, and nothing is emitted: by induction on `k`. -/
theorem execAll_replicate_deq {k : Nat} (hk : k ≤ s.q.length) :
    ∃ t, execAll (List.replicate k .deq) s = .next t ∧ t.q = s.q.drop k ∧ t.reqs = s.reqs := by
  induction k generalizing s with
  | zero => exact ⟨s, rfl, rfl, rfl⟩
  | succ k ih =>
    obtain ⟨f, fs, hq⟩ := List.exists_cons_of_length_pos (Nat.zero_lt_of_lt hk)
    rw [hq] at hk ⊢
    obtain ⟨t, he, hdrop, hreqs⟩ :=
      ih (s := answer (.frame f) { s with q := fs, deqCount := s.deqCount + 1 }) (Nat.le_of_succ_le_succ hk)
    refine ⟨t, ?_, hdrop, hreqs⟩
    rw [List.replicate_succ, execAll, exec_deq_cons hq]
    exact he

/-- Settles O42: the frame at place `k` is the head of what is left after `k` frames are taken. -/
theorem queueIsDrainedInOrder : Obligations.QueueIsDrainedInOrder := by
  intro k s f hf
  obtain ⟨hk, hget⟩ := List.getElem?_eq_some_iff.mp hf
  obtain ⟨t, he, hdrop, hreqs⟩ := execAll_replicate_deq hk.le
  have hq : t.q = f :: s.q.drop (k + 1) := by rw [hdrop, List.drop_eq_getElem_cons hk, hget]
  exact ⟨t, _, he, hdrop, exec_deq_cons hq, rfl, hreqs⟩

end Sys2Proof.Proofs
end

section
/-! Proofs of the statements of 30_encoding.md on the decoder and the encoder: each undoes the other up to the spelling,
the spellings of a word have one effect, and what the twelve constants of rule R66 and all other frames decode to. -/

namespace Sys2Proof.Proofs

open Sys2Proof.Machine Sys2Proof.Safety Sys2Proof.Laws

/-! ### Numbers and the bytes and words they are made of -/

/-- The low bytes of a number written from a byte sequence are that sequence, whatever stands above them: by induction
on the sequence, its first byte joining what stands above. -/
theorem bytesOf_mul_add_numberOf (x : Nat) (bs : List Byte) :
    bytesOf bs.length (x * 256 ^ bs.length + numberOf bs) = bs := by
  induction bs generalizing x with
  | nil => rfl
  | cons b bs ih =>
    have hsplit : x * 256 ^ (bs.length + 1) + (b.toNat * 256 ^ bs.length + numberOf bs) =
        (x * 256 + b.toNat) * 256 ^ bs.length + numberOf bs := by ring
    have hhead : ((x * 256 + b.toNat) * 256 ^ bs.length + numberOf bs) / 256 ^ bs.length = x * 256 + b.toNat := by
      rw [Nat.mul_comm, Nat.mul_add_div (by positivity), Nat.div_eq_of_lt (numberOf_lt bs), Nat.add_zero]
    have hbyte : BitVec.ofNat 8 (x * 256 + b.toNat) = b := by
      apply BitVec.eq_of_toNat_eq
      have := b.isLt
      rw [BitVec.toNat_ofNat]
      omega
    rw [List.length_cons, numberOf, hsplit, bytesOf, hhead, hbyte, ih]

/-- The number of the `k` low bytes of a number is its remainder: by induction on `k`. -/
theorem numberOf_bytesOf (k w : Nat) : numberOf (bytesOf k w) = w % 256 ^ k := by
  induction k with
  | zero => rw [pow_zero, Nat.mod_one]; rfl
  | succ k ih => rw [bytesOf, numberOf, bytesOf_length, ih, BitVec.toNat_ofNat, Nat.mod_pow_succ (b := 256)]; ring

/-- Byte `j` of the `k` low bytes of a number has `k - 1 - j` bytes below it. -/
theorem bytesOf_getElem? {k j : Nat} (hj : j < k) (w : Nat) :
    (bytesOf k w)[j]? = some (BitVec.ofNat 8 (w / 256 ^ (k - 1 - j))) := by
  induction k generalizing j with
  | zero => cases hj
  | succ k ih =>
    cases j with
    | zero => rfl
    | succ j =>
      have hbelow : k + 1 - 1 - (j + 1) = k - 1 - j := by omega
      rw [bytesOf, List.getElem?_cons_succ, ih (Nat.lt_of_succ_lt_succ hj), hbelow]

/-- The low bytes of a number written from a sequence of a fixed length. -/
theorem fixedBytes_mul_add_numberOf {k : Nat} (x : Nat) (w : Bytes k) :
    fixedBytes k (x * 256 ^ k + numberOf w.1) = w := by
  obtain ⟨bs, rfl⟩ := w
  exact Subtype.ext (bytesOf_mul_add_numberOf x bs)

/-- Joined words are read back as their bytes, whatever stands above them: by induction on the bytes. -/
theorem unpackOps_mul_add_packOps {code : Nat} (hcode : code < 16) (x : Nat) (bs : List Byte) :
    unpackOps code bs.length (x * 4096 ^ bs.length + packOps code bs) = some bs := by
  induction bs generalizing x with
  | nil => rfl
  | cons b bs ih =>
    have hb := b.isLt
    have hsplit : x * 4096 ^ (bs.length + 1) + ((code * 256 + b.toNat) * 4096 ^ bs.length + packOps code bs) =
        (x * 4096 + (code * 256 + b.toNat)) * 4096 ^ bs.length + packOps code bs := by ring
    have hhead : ((x * 4096 + (code * 256 + b.toNat)) * 4096 ^ bs.length + packOps code bs) / 4096 ^ bs.length =
        x * 4096 + (code * 256 + b.toNat) := by
      rw [Nat.mul_comm, Nat.mul_add_div (by positivity), Nat.div_eq_of_lt (packOps_lt code hcode bs), Nat.add_zero]
    have hcodeBits : (x * 4096 + (code * 256 + b.toNat)) % 4096 / 256 = code := by omega
    have hbyte : BitVec.ofNat 8 (x * 4096 + (code * 256 + b.toNat)) = b := by
      apply BitVec.eq_of_toNat_eq
      rw [BitVec.toNat_ofNat]
      omega
    rw [List.length_cons, packOps, hsplit, unpackOps, hhead, if_pos hcodeBits, ih, hbyte, Option.map_some]

/-- Words that are read as bytes are those the bytes are joined into: by induction on their number. -/
theorem packOps_of_unpackOps {code k w : Nat} {bs : List Byte} (h : unpackOps code k w = some bs) :
    bs.length = k ∧ packOps code bs = w % 4096 ^ k := by
  induction k generalizing bs with
  | zero =>
    obtain rfl := Option.some.inj h
    exact ⟨rfl, (Nat.mod_one w).symm⟩
  | succ k ih =>
    rw [unpackOps] at h
    split at h
    next hcode =>
      obtain ⟨rest, hrest, rfl⟩ := Option.map_eq_some_iff.mp h
      obtain ⟨hlen, hpack⟩ := ih hrest
      have hword : code * 256 + w / 4096 ^ k % 256 = w / 4096 ^ k % 4096 := by omega
      rw [packOps, hlen, hpack, BitVec.toNat_ofNat, Nat.mod_pow_succ (b := 4096), hword]
      exact ⟨congrArg Nat.succ hlen, by ring⟩
    next => cases h

/-! ### Frames from the link -/

/-- A frame's number decodes to the instruction of the frame (rule R60). -/
theorem decode_link_numberOf (w : Bytes 18) :
    decode (.link (BitVec.ofNat 144 (numberOf w.1))) = .ok (frameInstr w) := by
  have hnumber : numberOf w.1 % 2 ^ 144 = numberOf w.1 := Nat.mod_eq_of_lt (numberOf_lt_18 w)
  have hbytes := fixedBytes_mul_add_numberOf 0 w
  rw [Nat.zero_mul, Nat.zero_add] at hbytes
  rw [decode, BitVec.toNat_ofNat, hnumber, hbytes]

/-- A 144-bit number is the number of its 18 bytes (rule R60). -/
theorem ofNat_numberOf_fixedBytes (w : BitVec 144) : BitVec.ofNat 144 (numberOf (fixedBytes 18 w.toNat).1) = w := by
  have hnumber : numberOf (bytesOf 18 w.toNat) = w.toNat := by
    rw [numberOf_bytesOf]
    exact Nat.mod_eq_of_lt w.isLt
  rw [fixedBytes, hnumber, BitVec.ofNat_toNat, BitVec.setWidth_eq]

/-- An arriving frame is the row FRAME, or a row of rule R66 lists it. -/
theorem frameInstr_cases (w : Bytes 18) : frameInstr w = .frame w ∨ (w, frameInstr w) ∈ controlRows := by
  unfold frameInstr
  cases hfind : controlRows.find? fun r => r.1 == w with
  | none => exact .inl rfl
  | some r =>
    obtain rfl : r.1 = w := beq_iff_eq.mp (List.find?_some (p := fun u : Bytes 18 × Instr => u.1 == w) hfind)
    exact .inr (List.mem_of_find?_eq_some hfind)

/-- A row of rule R66 is the first that lists its frame. -/
theorem frameInstr_of_mem : ∀ r ∈ controlRows, frameInstr r.1 = r.2 := by decide +kernel

/-- The word of a row of rule R66 is the number of its frame. -/
theorem encode_of_mem_controlRows :
    ∀ r ∈ controlRows, encode r.2 = .link (BitVec.ofNat 144 (numberOf r.1.1)) := by decide +kernel

/-- The name a row of rule R66 gives its frame is the canonical one. -/
theorem canon_of_mem_controlRows : ∀ r ∈ controlRows, r.2.canon = r.2 := by decide +kernel

/-- A row of rule R66 runs as the arrival of its frame. -/
theorem exec_of_mem_controlRows {r : Bytes 18 × Instr} (hr : r ∈ controlRows) (s : State) :
    exec r.2 s = exec (.frame r.1) s := by
  unfold controlRows at hr
  fin_cases hr <;> rfl

/-- The word of a row of rule R66 is read as that row. -/
theorem decode_encode_of_mem_controlRows {i : Instr} (hi : i ∈ controlRows.map Prod.snd) :
    decode (encode i) = .ok i.canon := by
  obtain ⟨r, hr, rfl⟩ := List.mem_map.mp hi
  rw [encode_of_mem_controlRows r hr, decode_link_numberOf, frameInstr_of_mem r hr, canon_of_mem_controlRows r hr]

/-! ### The canonical spelling -/

@[simp] theorem canon_encodeInstr (l : Byte) (n : BitVec 5) (p : Bytes 16) :
    (encodeInstr l n p).canon = encodeInstr l n p := by
  by_cases h : l = 1 ∧ n = 1
  · rw [encodeInstr, if_pos h]
    rfl
  · have hencode : encodeInstr l n p = .encode l n p := if_neg h
    rw [hencode]
    exact hencode

@[simp] theorem canon_frameInstr (w : Bytes 18) : (frameInstr w).canon = frameInstr w := by
  obtain h | h := frameInstr_cases w
  · rw [h]
    exact h
  · exact canon_of_mem_controlRows _ h

/-- `CRC8` of at least one byte has a word of its own. -/
theorem canon_crc8 {bs : List Byte} (h : bs.length ≠ 0) : (Instr.crc8 bs).canon = .crc8 bs := by
  cases bs with
  | nil => exact absurd rfl h
  | cons => rfl

/-- `RX_APPEND` of any number of bytes but one has a word of its own. -/
theorem canon_rxAppend {bs : List Byte} (h : bs.length ≠ 1) : (Instr.rxAppend bs).canon = .rxAppend bs := by
  match bs with
  | [] => rfl
  | [_] => exact absurd rfl h
  | _ :: _ :: _ => rfl

/-! ### Operation words by their select code -/

/-- What an operation word of `width` bits is read as, once its select code is known (rule R71). -/
def decodeSelect (code width bits : Nat) : Except DecodeError Instr :=
  match code with
  | 0x0 => ofWidth 4 width .reset
  | 0x1 => decodeCrcClr width bits
  | 0x2 => ofWidth 12 width (.crcUpd (BitVec.ofNat 8 bits))
  | 0x3 => ofWidth 145 width
      (encodeInstr (BitVec.ofNat 8 (bits / 2 ^ 133)) (BitVec.ofNat 5 (bits / 2 ^ 128)) (fixedBytes 16 bits))
  | 0x4 => ofWidth 148 width (.decode (fixedBytes 18 bits))
  | 0x5 => ofWidth 148 width (.verify (splitBytes (fixedBytes 18 bits)))
  | 0x6 => decodeRx width bits
  | 0x7 => ofWidth 4 width .deq
  | 0x8 => ofWidth 4 width .reserved8
  | 0x9 => ofWidth 4 width .reserved9
  | 0xA => ofWidth 4 width .reservedA
  | 0xB => ofWidth 4 width .reservedB
  | 0xC => ofWidth 4 width .reservedC
  | 0xD => ofWidth 4 width .reservedD
  | 0xE => ofWidth 4 width .reservedE
  | 0xF => ofWidth 4 width .reservedF
  | _ => .error .bitsBeyondWidth

/-- A word that fits its width and holds a select code is read by that code (rule R71). -/
theorem decodeOp_eq_decodeSelect {width bits code : Nat} (hfits : bits < 2 ^ width) (hwidth : 4 ≤ width)
    (hcode : bits / 2 ^ (width - 4) = code) : decodeOp width bits = decodeSelect code width bits := by
  rw [decodeOp, if_neg (by omega), if_neg (by omega), if_neg (by omega), hcode]
  rfl

/-- A word that is an instruction is the empty `RX_APPEND`, or fits its width and is read by its select code. -/
theorem decodeOp_eq_ok_cases {width bits : Nat} {i : Instr} (h : decodeOp width bits = .ok i) :
    bits < 2 ^ width ∧ (width = 0 ∧ i = .rxAppend [] ∨
      4 ≤ width ∧ decodeSelect (bits / 2 ^ (width - 4)) width bits = .ok i) := by
  by_cases hfits : bits < 2 ^ width
  · refine ⟨hfits, ?_⟩
    by_cases hwidth : 4 ≤ width
    · exact .inr ⟨hwidth, (decodeOp_eq_decodeSelect hfits hwidth rfl).symm.trans h⟩
    · rw [decodeOp, if_neg (by omega)] at h
      split at h
      next h0 => exact .inl ⟨h0, (Except.ok.inj h).symm⟩
      next => rw [if_pos (by omega)] at h; cases h
  · rw [decodeOp, if_pos (by omega)] at h
    cases h

/-- An instruction of one width is read from that width only. -/
theorem ofWidth_eq_ok {want width : Nat} {i j : Instr} (h : ofWidth want width j = .ok i) : width = want ∧ i = j := by
  unfold ofWidth at h
  split at h
  next hw => exact ⟨hw, (Except.ok.inj h).symm⟩
  next => cases h

/-! ### Decode of encode -/

/-- A 12-bit word: the byte below the select code (rule R71). -/
theorem ofNat_add_toNat {x : Nat} (hx : x % 256 = 0) (b : Byte) : BitVec.ofNat 8 (x + b.toNat) = b := by
  apply BitVec.eq_of_toNat_eq
  have := b.isLt
  rw [BitVec.toNat_ofNat]
  omega

theorem decode_encode_crcUpd (b : Byte) : decode (encode (.crcUpd b)) = .ok (.crcUpd b) := by
  have hb := b.isLt
  have hselect : decodeOp 12 (0x200 + b.toNat) = decodeSelect 2 12 (0x200 + b.toNat) :=
    decodeOp_eq_decodeSelect (by omega) (by decide) (by omega)
  exact hselect.trans (congrArg (Except.ok ∘ Instr.crcUpd) (ofNat_add_toNat rfl b))

theorem decode_encode_rxByte (b : Byte) : decode (encode (.rxByte b)) = .ok (.rxByte b) := by
  have hb := b.isLt
  have hselect : decodeOp 12 (0x600 + b.toNat) = decodeSelect 6 12 (0x600 + b.toNat) :=
    decodeOp_eq_decodeSelect (by omega) (by decide) (by omega)
  exact hselect.trans (congrArg (Except.ok ∘ Instr.rxByte) (ofNat_add_toNat rfl b))

/-- An `ENCODE` word keeps its length field, `n` and all 16 payload bytes (rule R71). -/
theorem decode_encode_encode (l : Byte) (n : BitVec 5) (p : Bytes 16) :
    decode (encode (.encode l n p)) = .ok (encodeInstr l n p) := by
  have hl := l.isLt
  have hn := n.isLt
  have hp := numberOf_lt_16 p
  obtain ⟨bits, hbits⟩ : ∃ bits, bits = 0x3 * 2 ^ 141 + l.toNat * 2 ^ 133 + n.toNat * 2 ^ 128 + numberOf p.1 := ⟨_, rfl⟩
  have hselect : decodeOp 145 bits = decodeSelect 3 145 bits :=
    decodeOp_eq_decodeSelect (by omega) (by decide) (by omega)
  have hlength : BitVec.ofNat 8 (bits / 2 ^ 133) = l := BitVec.eq_of_toNat_eq (by rw [BitVec.toNat_ofNat]; omega)
  have hcount : BitVec.ofNat 5 (bits / 2 ^ 128) = n := BitVec.eq_of_toNat_eq (by rw [BitVec.toNat_ofNat]; omega)
  have hpayload : fixedBytes 16 bits = p := by
    have hsplit : bits = (0x3 * 2 ^ 13 + l.toNat * 2 ^ 5 + n.toNat) * 256 ^ 16 + numberOf p.1 := by rw [hbits]; ring
    rw [hsplit, fixedBytes_mul_add_numberOf]
  calc decode (encode (.encode l n p)) = decodeOp 145 bits := by rw [hbits]; rfl
    _ = .ok (encodeInstr (BitVec.ofNat 8 (bits / 2 ^ 133)) (BitVec.ofNat 5 (bits / 2 ^ 128)) (fixedBytes 16 bits)) :=
      hselect
    _ = .ok (encodeInstr l n p) := by rw [hlength, hcount, hpayload]

/-- A `CTRL` word is an `ENCODE` word whose ignored payload bytes are 0 (rules R83, R119). -/
theorem encode_ctrl (o : Byte) :
    encode (.ctrl o) = encode (.encode 1 1 ⟨o :: List.replicate 15 0x00, rfl⟩) := by
  have hzeros : numberOf (List.replicate 15 0x00) = 0 := by decide
  simp only [encode, numberOf, hzeros, List.length_replicate, Nat.add_zero]
  rfl

/-- A word of 148 bits: 18 bytes below the select code (rule R71). -/
theorem decodeOp_148 {code : Nat} (hcode : code < 16) (w : Bytes 18) :
    decodeOp 148 (code * 2 ^ 144 + numberOf w.1) = decodeSelect code 148 (code * 2 ^ 144 + numberOf w.1) ∧
      fixedBytes 18 (code * 2 ^ 144 + numberOf w.1) = w := by
  have hw := numberOf_lt_18 w
  exact ⟨decodeOp_eq_decodeSelect (by omega) (by decide) (by omega), fixedBytes_mul_add_numberOf code w⟩

theorem decode_encode_decode (w : Bytes 18) : decode (encode (.decode w)) = .ok (.decode w) := by
  obtain ⟨hselect, hbytes⟩ := decodeOp_148 (code := 4) (by decide) w
  exact hselect.trans (congrArg (Except.ok ∘ Instr.decode) hbytes)

theorem decode_encode_verify (f : Frame) : decode (encode (.verify f)) = .ok (.verify f) := by
  obtain ⟨hselect, hbytes⟩ := decodeOp_148 (code := 5) (by decide) (ser f)
  have hframe : splitBytes (fixedBytes 18 (5 * 2 ^ 144 + numberOf (ser f).1)) = f := by
    rw [hbytes]
    exact decodeFrame_ser f
  exact hselect.trans (congrArg (Except.ok ∘ Instr.verify) hframe)

/-- The expansion of `CRC8` is read back, the empty one as `CRC_CLR` (rules R83, R97). -/
theorem decode_encode_crc8 (bs : List Byte) : decode (encode (.crc8 bs)) = .ok (Instr.crc8 bs).canon := by
  have hpack := packOps_lt 2 (by decide) bs
  have hfits : 0x1 * 4096 ^ bs.length + packOps 2 bs < 2 ^ (4 + 12 * bs.length) := EncodedFits.crc8 bs
  have hcode : (0x1 * 4096 ^ bs.length + packOps 2 bs) / 2 ^ (4 + 12 * bs.length - 4) = 1 := by
    rw [Nat.add_sub_cancel_left, ← pow_4096, Nat.mul_comm, Nat.mul_add_div (by positivity), Nat.div_eq_of_lt hpack]
  have hselect := decodeOp_eq_decodeSelect hfits (by omega) hcode
  refine hselect.trans ?_
  cases bs with
  | nil => rfl
  | cons b bs =>
    have hwidth : (4 + 12 * (b :: bs).length) / 12 = (b :: bs).length := by omega
    rw [decodeSelect, decodeCrcClr, if_neg (by simp), if_pos (by omega), hwidth,
      unpackOps_mul_add_packOps (by decide)]
    rfl

/-- The expansion of `RX_APPEND` is read back, that of one byte as `RX_BYTE` (rules R83, R140). -/
theorem decode_encode_rxAppend (bs : List Byte) : decode (encode (.rxAppend bs)) = .ok (Instr.rxAppend bs).canon := by
  match bs with
  | [] => rfl
  | [b] =>
    have hword : encode (.rxAppend [b]) = encode (.rxByte b) := by
      simp [encode, packOps]
    rw [hword, decode_encode_rxByte]
    rfl
  | b :: c :: bs =>
    have hb := b.isLt
    have hpack := packOps_lt 6 (by decide) (c :: bs)
    have hfits : packOps 6 (b :: c :: bs) < 2 ^ (12 * (b :: c :: bs).length) := EncodedFits.rxAppend (b :: c :: bs)
    have hcode : packOps 6 (b :: c :: bs) / 2 ^ (12 * (b :: c :: bs).length - 4) = 6 := by
      have hpow : 2 ^ (12 * (b :: c :: bs).length - 4) = 4096 ^ (c :: bs).length * 256 := by
        rw [List.length_cons (as := c :: bs), pow_4096, show (256 : Nat) = 2 ^ 8 by rfl, ← pow_add]
        congr 1
      rw [packOps, hpow, ← Nat.div_div_eq_div_mul, Nat.mul_comm _ (4096 ^ _), Nat.mul_add_div (by positivity),
        Nat.div_eq_of_lt hpack]
      omega
    have hselect := decodeOp_eq_decodeSelect hfits (by simp; omega) hcode
    refine hselect.trans ?_
    have hwidth : 12 * (b :: c :: bs).length / 12 = (b :: c :: bs).length := by omega
    have hunpack := unpackOps_mul_add_packOps (code := 6) (by decide) 0 (b :: c :: bs)
    rw [Nat.zero_mul, Nat.zero_add] at hunpack
    rw [decodeSelect, decodeRx, if_neg (by simp), if_pos (by omega), hwidth, hunpack]
    rfl

/-- Settles O2: operand by operand; the words without operands are evaluated, and the frames of rule R66 are the rows of
its table. -/
theorem decodeOfEncode : Obligations.DecodeOfEncode := by
  intro i
  cases i with
  | crcUpd b => exact decode_encode_crcUpd b
  | encode l n p => exact decode_encode_encode l n p
  | decode w => exact decode_encode_decode w
  | verify f => exact decode_encode_verify f
  | rxByte b => exact decode_encode_rxByte b
  | ctrl o => rw [encode_ctrl, decode_encode_encode]; rfl
  | crc8 bs => exact decode_encode_crc8 bs
  | rxAppend bs => exact decode_encode_rxAppend bs
  | frame w => exact decode_link_numberOf w
  | reset | crcClr | deq | reserved8 | reserved9 | reservedA | reservedB | reservedC | reservedD | reservedE
  | reservedF => rfl
  | ack | retx | syncObserved | fwUpdateReq | fwUpdateRes | deviceIdReq | deviceIdRes | fwLengthReq | fwLengthRes
  | readyForData | updateSuccessful | nack => exact decode_encode_of_mem_controlRows (by decide)

/-! ### Encode of decode -/

/-- The instruction is spelt canonically, and the word is the one the encoder writes for it or, for `CTRL`, agrees with
it above the 120 ignored payload bits. -/
def ReadFrom (x : Input) (i : Instr) : Prop :=
  i.canon = i ∧ (encode i = x ∨
    ∃ o v e, i = .ctrl o ∧ x = .op 145 v ∧ encode i = .op 145 e ∧ v / 2 ^ 120 = e / 2 ^ 120)

/-- A word that the encoder writes is read from, under the canonical spelling. -/
theorem readFrom_of_encode_eq {x : Input} {i : Instr} (hcanon : i.canon = i) (hencode : encode i = x) : ReadFrom x i :=
  ⟨hcanon, .inl hencode⟩

/-- A word that is a select code alone. -/
theorem readFrom_select {code width bits : Nat} {i j : Instr} (hcode : bits / 2 ^ (width - 4) = code)
    (h : ofWidth 4 width j = .ok i) (hcanon : j.canon = j) (hencode : encode j = .op 4 code) :
    ReadFrom (.op width bits) i := by
  obtain ⟨rfl, rfl⟩ := ofWidth_eq_ok h
  obtain rfl : bits = code := (Nat.div_one bits).symm.trans hcode
  exact readFrom_of_encode_eq hcanon hencode

/-- A 145-bit word with select code 0x3: the fields that are read make the word again, but for a `CTRL`, which keeps the
first payload byte only. -/
theorem readFrom_encodeInstr {bits : Nat} (hcode : bits / 2 ^ 141 = 3) :
    ReadFrom (.op 145 bits)
      (encodeInstr (BitVec.ofNat 8 (bits / 2 ^ 133)) (BitVec.ofNat 5 (bits / 2 ^ 128)) (fixedBytes 16 bits)) := by
  refine ⟨canon_encodeInstr _ _ _, ?_⟩
  by_cases hctrl : BitVec.ofNat 8 (bits / 2 ^ 133) = 1 ∧ BitVec.ofNat 5 (bits / 2 ^ 128) = 1
  · have hlength : bits / 2 ^ 133 % 2 ^ 8 = 1 := congrArg BitVec.toNat hctrl.1
    have hcount : bits / 2 ^ 128 % 2 ^ 5 = 1 := congrArg BitVec.toNat hctrl.2
    have hopcode : ((fixedBytes 16 bits).1[0]'(by rw [(fixedBytes 16 bits).2]; decide)).toNat =
        bits / 2 ^ 120 % 2 ^ 8 := BitVec.toNat_ofNat _ _
    rw [encodeInstr, if_pos hctrl]
    refine .inr ⟨_, bits, _, rfl, rfl, rfl, ?_⟩
    rw [hopcode]
    omega
  · have hnumber : numberOf (bytesOf 16 bits) = bits % 2 ^ 128 := numberOf_bytesOf 16 bits
    rw [encodeInstr, if_neg hctrl]
    refine .inl (congrArg (Input.op 145) ?_)
    rw [fixedBytes, hnumber, BitVec.toNat_ofNat, BitVec.toNat_ofNat]
    omega

/-- A 12-bit word with its byte. -/
theorem select_add_byte {code bits : Nat} (hcode : bits / 2 ^ 8 = code) :
    code * 2 ^ 8 + (BitVec.ofNat 8 bits).toNat = bits := by
  rw [BitVec.toNat_ofNat]
  omega

/-- A 148-bit word with its 18 bytes. -/
theorem select_add_numberOf {code bits : Nat} (hcode : bits / 2 ^ 144 = code) :
    code * 2 ^ 144 + numberOf (fixedBytes 18 bits).1 = bits := by
  have hnumber : numberOf (bytesOf 18 bits) = bits % 2 ^ 144 := numberOf_bytesOf 18 bits
  rw [fixedBytes, hnumber]
  omega

/-- A word with select code 0x1: `CRC_CLR`, or the expansion of a `CRC8` of at least one byte. -/
theorem readFrom_decodeCrcClr {width bits : Nat} {i : Instr} (hcode : bits / 2 ^ (width - 4) = 1)
    (h : decodeCrcClr width bits = .ok i) : ReadFrom (.op width bits) i := by
  unfold decodeCrcClr at h
  split at h
  next hwidth =>
    obtain rfl := Except.ok.inj h
    subst hwidth
    exact readFrom_select hcode rfl rfl rfl
  next hne =>
    split at h
    next hmod =>
      split at h
      next bs hunpack =>
        obtain rfl := Except.ok.inj h
        obtain ⟨hlen, hpack⟩ := packOps_of_unpackOps hunpack
        have hwidth : 4 + 12 * bs.length = width := by omega
        have hbits : bits / 4096 ^ bs.length = 1 := by
          rwa [← hwidth, Nat.add_sub_cancel_left, ← pow_4096] at hcode
        refine readFrom_of_encode_eq (canon_crc8 (by omega)) ?_
        rw [encode, hwidth, hpack, ← hlen, ← hbits, Nat.div_add_mod']
      next => cases h
    next => cases h

/-- A word with select code 0x6: `RX_BYTE`, or the expansion of an `RX_APPEND` of at least two bytes. -/
theorem readFrom_decodeRx {width bits : Nat} {i : Instr} (hfits : bits < 2 ^ width)
    (hcode : bits / 2 ^ (width - 4) = 6) (h : decodeRx width bits = .ok i) : ReadFrom (.op width bits) i := by
  unfold decodeRx at h
  split at h
  next hwidth =>
    obtain rfl := Except.ok.inj h
    subst hwidth
    exact readFrom_of_encode_eq rfl (congrArg (Input.op 12) (select_add_byte hcode))
  next hne =>
    split at h
    next hmod =>
      split at h
      next bs hunpack =>
        obtain rfl := Except.ok.inj h
        obtain ⟨hlen, hpack⟩ := packOps_of_unpackOps hunpack
        have hwidth : 12 * bs.length = width := by omega
        refine readFrom_of_encode_eq (canon_rxAppend (by omega)) ?_
        rw [encode, hwidth, hpack, ← hlen, pow_4096, hwidth, Nat.mod_eq_of_lt hfits]
      next => cases h
    next => cases h

/-- What a select code's decoder reads from a word is read from it: code by code. -/
theorem readFrom_decodeSelect {code width bits : Nat} {i : Instr} (hfits : bits < 2 ^ width)
    (hcode : bits / 2 ^ (width - 4) = code) (h : decodeSelect code width bits = .ok i) :
    ReadFrom (.op width bits) i := by
  unfold decodeSelect at h
  split at h
  case h_2 => exact readFrom_decodeCrcClr hcode h
  case h_3 =>
    obtain ⟨rfl, rfl⟩ := ofWidth_eq_ok h
    exact readFrom_of_encode_eq rfl (congrArg (Input.op 12) (select_add_byte hcode))
  case h_4 =>
    obtain ⟨rfl, rfl⟩ := ofWidth_eq_ok h
    exact readFrom_encodeInstr hcode
  case h_5 =>
    obtain ⟨rfl, rfl⟩ := ofWidth_eq_ok h
    exact readFrom_of_encode_eq rfl (congrArg (Input.op 148) (select_add_numberOf hcode))
  case h_6 =>
    obtain ⟨rfl, rfl⟩ := ofWidth_eq_ok h
    refine readFrom_of_encode_eq rfl (congrArg (Input.op 148) ?_)
    rw [ser_splitBytes]
    exact select_add_numberOf hcode
  case h_7 => exact readFrom_decodeRx hfits hcode h
  case h_17 => cases h
  all_goals exact readFrom_select hcode h rfl rfl

/-- What the decoder reads from an input is read from it. -/
theorem readFrom_of_decode {x : Input} {i : Instr} (h : decode x = .ok i) : ReadFrom x i := by
  cases x with
  | op width bits =>
    obtain ⟨hfits, ⟨rfl, rfl⟩ | ⟨-, hselect⟩⟩ := decodeOp_eq_ok_cases h
    · obtain rfl : bits = 0 := Nat.lt_one_iff.mp hfits
      exact readFrom_of_encode_eq rfl rfl
    · exact readFrom_decodeSelect hfits rfl hselect
  | link w =>
    obtain rfl := Except.ok.inj h
    refine readFrom_of_encode_eq (canon_frameInstr _) ?_
    have hword : encode (frameInstr (fixedBytes 18 w.toNat)) =
        .link (BitVec.ofNat 144 (numberOf (fixedBytes 18 w.toNat).1)) := by
      obtain hframe | hrow := frameInstr_cases (fixedBytes 18 w.toNat)
      · rw [hframe]
        rfl
      · exact encode_of_mem_controlRows _ hrow
    rw [hword, ofNat_numberOf_fixedBytes]

/-- Settles O3: what is read back follows from the canonical spelling, since `decode` undoes `encode` up to it. -/
theorem decodedInstructionsReadBack : Obligations.DecodedInstructionsReadBack := by
  intro x i h
  obtain ⟨hcanon, hword⟩ := readFrom_of_decode h
  refine ⟨hcanon, (decodeOfEncode i).trans (congrArg _ hcanon), fun hne => ?_, fun o ho => ?_⟩
  · obtain hword | ⟨o, -, -, ho, -⟩ := hword
    · exact hword
    · exact absurd ho (hne o)
  · obtain hword | ⟨-, v, e, -, hv, he, hve⟩ := hword
    · subst ho
      exact ⟨_, _, hword.symm, rfl, rfl⟩
    · exact ⟨v, e, hv, he, hve⟩

/-! ### Spellings of one word -/

/-- Settles O4: only four instructions have another canonical spelling. -/
theorem spellingsHaveTheSameEffect : Obligations.SpellingsHaveTheSameEffect := by
  intro i s
  cases i with
  | encode l n p =>
    by_cases h : l = 1 ∧ n = 1
    · obtain ⟨rfl, rfl⟩ := h
      have hop : p.1[0]? = some (p.1[0]'(by rw [p.2]; decide)) := List.getElem?_eq_getElem _
      exact congrArg _ (exec_encode_one_eq_exec_ctrl hop s).symm
    · have hcanon : (Instr.encode l n p).canon = .encode l n p := if_neg h
      rw [hcanon]
  | crc8 bs => cases bs <;> rfl
  | rxAppend bs =>
    match bs with
    | [] | [_] | _ :: _ :: _ => rfl
  | frame w =>
    have hcanon : (Instr.frame w).canon = frameInstr w := rfl
    obtain hframe | hrow := frameInstr_cases w
    · rw [hcanon, hframe]
    · rw [hcanon, exec_of_mem_controlRows hrow]
  | _ => rfl

/-! ### Words and numbers -/

/-- The constants of rule R66 are the numbers of the frames in its rows. -/
theorem decode_linkConstants : ∀ r ∈ linkConstants, decode (.link r.1) = .ok r.2 := by decide +kernel

/-- The numbers of the frames in the rows of rule R66 are its constants. -/
theorem numberOf_mem_linkConstants :
    ∀ r ∈ controlRows, BitVec.ofNat 144 (numberOf r.1.1) ∈ linkConstants.map Prod.fst := by decide +kernel

/-- Byte `k` of a 144-bit number is its bits `143-8k` to `136-8k` (rule R60). -/
theorem fixedBytes_getElem? (w : BitVec 144) {k : Nat} (hk : k < 18) :
    (fixedBytes 18 w.toNat).1[k]? = some (w.extractLsb' (136 - 8 * k) 8) := by
  have hshift : 256 ^ (18 - 1 - k) = 2 ^ (136 - 8 * k) := by
    rw [show (256 : Nat) = 2 ^ 8 by rfl, ← pow_mul]
    congr 1
    omega
  rw [fixedBytes, bytesOf_getElem? hk, hshift, ← Nat.shiftRight_eq_div_pow]
  rfl

/-- Settles O59: a number is that of its bytes, so a row of rule R66 that lists these has the number as its constant. -/
theorem everyNumberDecodesToItsFrame : Obligations.EveryNumberDecodesToItsFrame := by
  refine fun w => ⟨fun r hr hw => hw ▸ decode_linkConstants r hr, fun hw => ?_⟩
  refine ⟨fixedBytes 18 w.toNat, ?_, fun k => fixedBytes_getElem? w⟩
  obtain hframe | hrow := frameInstr_cases (fixedBytes 18 w.toNat)
  · exact congrArg Except.ok hframe
  · have hconstant := numberOf_mem_linkConstants _ hrow
    rw [ofNat_numberOf_fixedBytes] at hconstant
    exact absurd hconstant hw

/-- Settles O1: the words are evaluated. -/
theorem wordsOfTheSpecDecode : Obligations.WordsOfTheSpecDecode :=
  ⟨by decide +kernel, decode_linkConstants, by decide +kernel⟩

/-! ### Dispositions -/

/-- A frame that verifies and is none of the three control frames is application data (rule R133). -/
theorem classify_eq_app {f : Frame} (hv : verifyFrame f = true) (hctrl : ∀ op ∈ opcodes, isCtrl f op = false) :
    classify f = .app := by
  have hretx := hctrl Config.opRetx (by decide)
  have hack := hctrl Config.opAck (by decide)
  have hnack := hctrl Config.opNack (by decide)
  rw [classify, hv, hretx, hack, hnack]
  rfl

/-- A frame is told by its 18 bytes (rule R110). -/
theorem eq_decodeFrame_of_ser_val {f : Frame} (w : Bytes 18) (h : (ser f).1 = w.1) : f = decodeFrame w := by
  rw [← Subtype.ext h, decodeFrame_ser]

/-- Settles O8: what verifies and has not the shape of a listed opcode is application data; the two single frames are
evaluated. -/
theorem everyValueHasADisposition : Obligations.EveryValueHasADisposition := by
  refine ⟨fun f hcrc => ?mismatch, fun f op hcrc hl hp hop => ?unlisted, by decide +kernel, fun f hcrc hshape => ?other,
    ⟨by decide +kernel, fun f hf => ?zeros⟩, by decide +kernel, fun f hf => ?ones⟩
  case mismatch => exact classify_of_verifyFrame_eq_false (beq_eq_false_iff_ne.mpr hcrc)
  case unlisted =>
    have hctrl : isCtrl f op = true := (isCtrl_iff f op).mpr ⟨hl, hp⟩
    exact classify_eq_app (beq_iff_eq.mpr hcrc) fun op' hop' =>
      isCtrl_eq_false_of_ne hctrl (ne_of_mem_of_not_mem hop' hop).symm
  case other =>
    refine classify_eq_app (beq_iff_eq.mpr hcrc) fun op _ => Bool.eq_false_iff.mpr fun hctrl => ?_
    obtain ⟨hl, hp⟩ := (isCtrl_iff f op).mp hctrl
    exact hshape.elim (· hl) (· (congrArg (List.drop 1) hp))
  case zeros =>
    obtain rfl := eq_decodeFrame_of_ser_val ⟨List.replicate 18 0x00, rfl⟩ hf
    exact ⟨by decide +kernel, rfl⟩
  case ones =>
    obtain rfl := eq_decodeFrame_of_ser_val ⟨List.replicate 18 0xFF, rfl⟩ hf
    decide +kernel

/-- The rows of the two tables of rule R66 are the same frames and instructions. -/
theorem mem_controlRows_of_mem_controlTable :
    ∀ r ∈ controlTable, (ctrlBytes r.2.1 r.2.2.1, r.1) ∈ controlRows := by decide +kernel

/-- No row of rule R66 has a wrong crc. -/
theorem disp_ne_crcFail_of_mem_controlTable : ∀ r ∈ controlTable, r.2.2.2 ≠ .crcFail := by decide

/-- Settles O10: a row runs as its frame, which at a frame boundary is disposed of as the table lists. -/
theorem twelveControlFrames : Obligations.TwelveControlFrames := by
  intro r hr
  have hrow := mem_controlRows_of_mem_controlTable r hr
  refine ⟨encode_of_mem_controlRows _ hrow, fun s hb hroom => ?_⟩
  have harrival : exec r.1 s = .next (deliver (ctrlBytes r.2.1 r.2.2.1).1 s) := exec_of_mem_controlRows hrow s
  have hne := disp_ne_crcFail_of_mem_controlTable r hr
  rw [harrival, deliver, receive_frame _ hb, classify_of_controlTable r hr]
  obtain ⟨⟨ha, -⟩, hbuf⟩ := hb
  cases hd : r.2.2.2 with
  | crcFail => exact absurd hd hne
  | app =>
    rw [dispose_app_of_hasRoom _ ?room]
    case room => exact hroom
    simp [answer, emit, push, consume, ha, hbuf]
  | retx | ack | nack => simp [dispose_eq, answer, consume, ha, hbuf]

end Sys2Proof.Proofs
end

section
/-! Proof that the deframer refines the source's append loop (42_deframer.md section 3). -/

namespace Sys2Proof.Proofs

open Sys2Proof.Machine Sys2Proof.Safety

variable {s : State}

/-- The source's view of a state, its buffer holding what the source has not yet consumed. -/
def srcViewWith (buffer : List Byte) (s : State) : SrcDeframer := { srcView s with buffer := buffer }

/-- The source compares a candidate with the constants of rule R66 and recomputes its CRC, in the order in which
`Classify` asks; with an unbounded queue its turn is the disposal (rules R133 to R138). -/
theorem take_srcViewWith (buffer : List Byte) (f : Frame) (hq : s.cfg.qdepth = none) :
    (srcViewWith buffer s).take f = srcViewWith buffer (dispose (classify f) f (consume (classify f) s)) := by
  have hcrc : (crc8 (f.length :: f.payload.1) == f.crc) = verifyFrame f := rfl
  have hretx := ser_eq_ctrlBytes_iff_of_mem (i := .retx) (op := 0x19) (c := 0x3F) (d := .retx) (by decide) f
  have hack := ser_eq_ctrlBytes_iff_of_mem (i := .ack) (op := 0x15) (c := 0x27) (d := .ack) (by decide) f
  have hnack := ser_eq_ctrlBytes_iff_of_mem (i := .nack) (op := 0x59) (c := 0xBF) (d := .nack) (by decide) f
  have hroom : hasRoom (consume .app s) = true := (hasRoom_iff _).2 (by simp [hq])
  simp only [SrcDeframer.take, hcrc, beq_iff_eq, hretx, hack, hnack]
  obtain ⟨hv, hc⟩ | ⟨hv, h19, hc⟩ | ⟨hv, h19, h15, hc⟩ | ⟨hv, h19, h15, h59, hc⟩ | ⟨hv, h19, h15, h59, hc⟩ :=
    classify_cases f
  · simp [hc, hv, dispose_eq, srcViewWith, srcView]
  · simp only [hc, hv, h19, dispose_eq]
    rfl
  · simp only [hc, hv, h19, h15, dispose_eq]
    rfl
  · simp only [hc, hv, h19, h15, h59, dispose_eq]
    rfl
  · simp only [hc, hv, h19, h15, h59, dispose_app_of_hasRoom f hroom]
    rfl

/-- The source's loop does nothing once it has aborted. -/
theorem loop_of_aborted {d : SrcDeframer} (h : d.aborted = true) (n : Nat) : d.loop n = d := by
  cases n with
  | zero => rfl
  | succ n => exact if_pos h

/-- The source's loop waits while the buffer holds less than a frame. -/
theorem loop_of_lt {d : SrcDeframer} (h : d.buffer.length < 18) (n : Nat) : d.loop n = d := by
  cases n with
  | zero => rfl
  | succ n => rw [SrcDeframer.loop, dif_neg (not_le.mpr h), ite_self]

/-- The source's loop takes the first frame of its buffer. -/
theorem loop_append {d : SrcDeframer} {w : Bytes 18} {rest : List Byte} (ha : d.aborted = false)
    (hbuffer : d.buffer = w.1 ++ rest) (n : Nat) :
    d.loop (n + 1) = ({ d with buffer := rest }.take (decodeFrame w)).loop n := by
  have hlen : 18 ≤ d.buffer.length := by
    rw [hbuffer, List.length_append, w.2]
    exact Nat.le_add_right _ _
  have hframe : (⟨d.buffer.take 18, by simp [hlen]⟩ : Bytes 18) = w :=
    Subtype.ext ((congrArg (List.take 18) hbuffer).trans (List.take_left' w.2))
  have hrest : d.buffer.drop 18 = rest := by rw [hbuffer, List.drop_left' w.2]
  rw [SrcDeframer.loop, if_neg (ne_true_of_eq_false ha), dif_pos hlen, hframe, hrest]
  rfl

/-- Bytes that complete a candidate end with its last byte, the rest following it. -/
theorem exists_completing_byte {held bs : List Byte} (hheld : held.length ≤ 17) (h : 18 ≤ held.length + bs.length) :
    ∃ (as : List Byte) (b : Byte) (rest : List Byte) (w : Bytes 18),
      bs = as ++ [b] ++ rest ∧ held ++ as ++ [b] = w.1 := by
  have hk : 17 - held.length < bs.length := by omega
  refine ⟨bs.take (17 - held.length), bs[17 - held.length], bs.drop (17 - held.length + 1),
    ⟨held ++ bs.take (17 - held.length) ++ [bs[17 - held.length]], ?_⟩, ?_, rfl⟩
  · simp
    omega
  · simp [List.take_append_drop]

/-- One turn of the source's loop is the bytes that complete a candidate (rule R132). -/
theorem loop_succ_eq_receive {as rest : List Byte} {b : Byte} {w : Bytes 18} (hr : Running s) (hq : s.cfg.qdepth = none)
    (hw : s.rxbuf ++ as ++ [b] = w.1) (n : Nat) :
    (srcViewWith (s.rxbuf ++ (as ++ [b] ++ rest)) s).loop (n + 1) =
      (srcViewWith rest (receive (as ++ [b]) s).1).loop n := by
  have hbuffer : s.rxbuf ++ (as ++ [b] ++ rest) = w.1 ++ rest := by rw [← hw]; simp
  rw [loop_append (d := srcViewWith _ s) hr.1 hbuffer, receive_completes hr hw]
  exact congrArg (SrcDeframer.loop n)
    (take_srcViewWith (s := { s with streamPos := s.streamPos + as.length }) rest (decodeFrame w) hq)

/-- Bytes that complete a candidate leave a frame boundary or, after a NACK, the deframer aborted. -/
theorem atBoundary_or_aborted_of_completes {as : List Byte} {b : Byte} {w : Bytes 18} (hr : Running s)
    (hq : s.cfg.qdepth = none) (hw : s.rxbuf ++ as ++ [b] = w.1) :
    AtBoundary (receive (as ++ [b]) s).1 ∨ (receive (as ++ [b]) s).1.aborted = true := by
  rw [receive_completes hr hw]
  by_cases hnack : classify (decodeFrame w) = .nack
  · rw [hnack]
    exact .inr rfl
  · exact .inl ⟨running_dispose _ hr hq hnack, (dispose_frame _ _ _).1⟩

/-- Giving a chunk byte by byte is the source's loop on the bytes held and the chunk, its buffer then holding what is
held unless it aborted: by induction on the turns, each of which takes one candidate. -/
theorem loop_eq_receive {n : Nat} {bs : List Byte} (hr : Running s) (hheld : s.rxbuf.length ≤ 17)
    (hq : s.cfg.qdepth = none) (hn : (s.rxbuf.length + bs.length) / 18 ≤ n) :
    ∃ buffer, (srcViewWith (s.rxbuf ++ bs) s).loop n = srcViewWith buffer (receive bs s).1 ∧
      ((receive bs s).1.aborted = false → buffer = (receive bs s).1.rxbuf) := by
  induction n generalizing bs s with
  | zero =>
    have hshort : s.rxbuf.length + bs.length < 18 := by omega
    rw [receive_collects bs hr hshort]
    exact ⟨s.rxbuf ++ bs, rfl, fun _ => rfl⟩
  | succ n ih =>
    by_cases hshort : s.rxbuf.length + bs.length < 18
    · have hbuffer : (srcViewWith (s.rxbuf ++ bs) s).buffer.length < 18 := by rwa [srcViewWith, List.length_append]
      rw [loop_of_lt hbuffer, receive_collects bs hr hshort]
      exact ⟨s.rxbuf ++ bs, rfl, fun _ => rfl⟩
    · obtain ⟨as, b, rest, w, rfl, hw⟩ := exists_completing_byte hheld (not_lt.mp hshort)
      rw [loop_succ_eq_receive hr hq hw, receive_append (as ++ [b]) rest s]
      obtain hb | ha := atBoundary_or_aborted_of_completes hr hq hw
      · obtain ⟨hrun, hbuf⟩ := hb
        have hturns : ((receive (as ++ [b]) s).1.rxbuf.length + rest.length) / 18 ≤ n := by
          have hlen := congrArg List.length hw
          simp only [List.length_append, List.length_singleton, w.2, hbuf, List.length_nil] at hlen hn ⊢
          omega
        have hloop := ih hrun (by rw [hbuf]; exact Nat.zero_le _) ((congrArg _ (receive_cfg _ s)).trans hq) hturns
        rwa [hbuf] at hloop
      · have hstopped : (receive (as ++ [b]) s).1.stopped = true := by rw [State.stopped, ha]; rfl
        rw [loop_of_aborted (d := srcViewWith _ _) ha, receive_stopped rest hstopped]
        exact ⟨rest, rfl, fun hrun => absurd ha (ne_true_of_eq_false hrun)⟩

/-- Settles O39: `RX_APPEND` is `receive`, which the source's loop follows candidate by candidate. -/
theorem deframerRefinesTheSourceLoop : Obligations.DeframerRefinesTheSourceLoop := by
  intro bs s hr hheld hq
  obtain ⟨buffer, hloop, hbuf⟩ :=
    loop_eq_receive (n := s.rxbuf.length + bs.length) (bs := bs) hr hheld hq (Nat.div_le_self _ _)
  have happend : (srcView s).append bs = srcViewWith buffer (receive bs s).1 := hloop
  refine ⟨_, exec_rxAppend bs s, ?_⟩
  rw [happend]
  exact ⟨rfl, rfl, rfl, rfl, fun ha => (hbuf ha).symm, receive_crc bs s⟩

end Sys2Proof.Proofs
end
